-- ==== Sys2Proof/Word.lean ====
section
/-! DEFINITION. The plain value types of the IJV-412 model: bytes, show ticks and milliwatts. -/

namespace Sys2Proof

/-- One byte of the show memory, of a frame payload or of a maintenance record. -/
abbrev Byte := BitVec 8

/-- A show time in ticks of 10 ms since the last restart, held unwrapped (DEDUCED, assumption 4): every interval of the
manual is a difference of two show times, so the wrap of the 32-bit count does not affect it
(00_scope.md, Conventions). -/
abbrev Tick := Nat

/-- A power in the sharing arithmetic (00_scope.md, Units: milliwatts, exact integers). -/
abbrev MilliWatt := Nat

end Sys2Proof
end

