-- ==== Sys2Proof/Config.lean ====
section
/-! DEFINITION. The free values: what the manual leaves open, as constants with no body, so that nothing in Lean
can prove a value of one. `State.draws` counts the draws and is the first argument of the ones drawn afresh. -/

namespace Sys2Proof

/-- FREE VALUE (R168, DESIGN CHOICE, assumption 5): whether the byte at an address keeps its old value when an
operation is cut
short. The first argument is the draw, the second the address. -/
opaque Config.cutKeepsOld : Nat → Nat → Bool

/-- FREE VALUE (DESIGN CHOICE, assumption 2): which of several events due at one show time an idle station takes
next. The manual
gives the outcome of either order and fixes none (for example R6, R36, R43). -/
opaque Config.nextDue : Nat → Nat

/-- FREE VALUE (R132, DESIGN CHOICE, assumption 6): whether a RESUME activation reaches the Halt Logic before the
Track Block. -/
opaque Config.resumeReachesHaltFirst : Nat → Bool

/-- FREE VALUE (R104, DESIGN CHOICE, assumption 7): whether line A leading line B counts up on a drive of encoder
direction
NORMAL. The manual says the sense is set by which line leads, and not which is up. -/
opaque Config.aLeadingCountsUp : Bool

end Sys2Proof
end

