-- ==== Sys2Proof/Syntax.lean ====
section
/-! DEFINITION. The commands: one constructor of `Instr` for each row of spec/opcode_table.json, with the values
that a row's event brings with it from outside the station. -/

namespace Sys2Proof

/-- A frame as its bits stand on the gallery line after the start bit (R169): the 16-bit header, the payload
bytes, the 16-bit CRC and the 7-bit end field. -/
structure Frame where
  header : BitVec 16
  payload : List Byte
  crc : BitVec 16
  endField : BitVec 7
deriving DecidableEq, Repr

/-- A frame kind (R142). -/
inductive FrameKind where
  | halt | resume | talkIntent | talkBusy | talkEnd | blockAsk | blockGrant | blockHeld | blockRelease | cue | load
deriving DecidableEq, Repr

/-- A halt reason (R149). -/
inductive HaltReason where
  | stopInput | line
deriving DecidableEq, Repr

/-- The cause a BLOCK_HELD carries (R120). -/
inductive HeldCause where
  | power | busy
deriving DecidableEq, Repr

/-- The outcome a BLOCK_RELEASE carries (R120). -/
inductive ReleaseOutcome where
  | done | cancel | failed
deriving DecidableEq, Repr

/-- What a frame carries, kind by kind (R142, R169). Stations, times and demands are the numbers on the line. -/
inductive FrameBody where
  | halt (reason : HaltReason)
  | resume
  | talkIntent (priority duration : Nat)
  | talkBusy (dest priority remaining : Nat)
  | talkEnd
  | blockAsk (dest speedClass : Nat)
  | blockGrant (dest : Nat)
  | blockHeld (dest : Nat) (cause : HeldCause)
  | blockRelease (dest : Nat) (outcome : ReleaseOutcome)
  | cue (dest tag : Nat)
  | load (demand group : Nat) (halted : Bool)
deriving DecidableEq, Repr

/-- A drive's two switches (R113). -/
inductive Switch where
  | homeSwitch | endSwitch
deriving DecidableEq, Repr

/-- What the field inputs read at a restart: the ADC codes of the eight visitor inputs (R29), and each drive's
switch states and encoder line levels (R118, first samples after the restart). -/
structure Levels where
  codes : Vector (BitVec 10) 8
  homeClosed : Vector Bool 4
  endClosed : Vector Bool 4
  encA : Vector Bool 4
  encB : Vector Bool 4
deriving DecidableEq, Repr

/-- A command of the station: one row of spec/opcode_table.json. A timer row names whose timer it is; a sample row
brings the sample; a received-frame row brings the frame; a maintenance row brings the record's bytes after its
code; a row that restarts the station brings the levels it then samples. -/
inductive Instr where
  | powerOn (maintSelLow : Bool) (levels : Levels)
  | powerLoss
  | resetAssert
  | resetRelease (maintSelLow : Bool) (levels : Levels)
  | inputSample (input : Fin 8) (code : BitVec 10)
  | latchExpiry (input : Fin 8)
  | cooldownEnd (scene : Fin 64)
  | stepDeadline (slot : Fin 4)
  | awaitTimeout (slot : Fin 4)
  | quietTimerExpiry
  | idleTimerExpiry
  | fadeStep (channel : Fin 12)
  | announcementDue
  | admissionTimeout (drive : Fin 4)
  | voiceEntryExpiry (station : Nat)
  | patienceExpiry (slot : Fin 4) (clip : Byte)
  | windowEnd
  | clipEnd
  | fadeOutEnd
  | encoderCount (drive : Fin 4) (lineA lineB : Bool)
  | stillTimerExpiry (drive : Fin 4)
  | stallTimerExpiry (drive : Fin 4)
  | currentSample (drive : Fin 4) (code : BitVec 10)
  | switchClose (drive : Fin 4) (which : Switch)
  | haltBrakeEnd (drive : Fin 4)
  | retryTimerExpiry
  | giveUpTimerExpiry
  | grantTimerExpiry
  | settleEnd
  | haltReceived (frame : Frame)
  | resumeReceived (frame : Frame)
  | talkIntentReceived (frame : Frame)
  | talkBusyReceived (frame : Frame)
  | talkEndReceived (frame : Frame)
  | blockAskReceived (frame : Frame)
  | blockGrantReceived (frame : Frame)
  | blockHeldReceived (frame : Frame)
  | blockReleaseReceived (frame : Frame)
  | cueReceived (frame : Frame)
  | loadReceived (frame : Frame)
  | peerAgeOut (station : Nat)
  | transmissionAttempt
  | arbitrationLost
  | readbackAbort
  | transmissionSuccess
  | muteTimerExpiry
  | joiningTimerExpiry
  | lineStuck
  | stuckHoldClear
  | transactionDiscard (clockedIn : List Byte)
  | unknownCommand (code : Byte)
  | identify
  | status
  | setAddress (address : BitVec 24)
  | read
  | readNext
  | load (data : Byte)
  | loadNext (data : Byte)
  | commit
  | commitComplete
  | eraseSector
  | eraseAllContent
  | eraseAllEverything
  | eraseComplete
  | faults
  | clearFaults
  | exit (levels : Levels)
  | switchOpen (drive : Fin 4) (which : Switch)
  | supplyRiseWithResetLow
  | eraseAllScopeRefused (scope : Byte)
deriving DecidableEq, Repr

end Sys2Proof
end

