-- ==== Sys2Proof/Decode.lean ====
section
/-! DEFINITION. Bytes and bits: the byte order of R169 to R171, the line frame and its CRC (R169), the values a
receiver reads from a payload, and the maintenance command records (R170). No row of spec/opcode_table.json gives
bits, so `decodeTableWord` answers none. -/

namespace Sys2Proof

/-- The number in a run of bytes, most significant byte first (11_formats_and_connections.md). -/
def beNat : List Byte → Nat :=
  List.foldl (fun acc b => acc * 256 + b.toNat) 0

/-- The low two bytes of a number, most significant first. -/
def be16 (n : Nat) : List Byte :=
  [BitVec.ofNat 8 (n / 256), BitVec.ofNat 8 n]

/-- The low four bytes of a number, most significant first. -/
def be32 (n : Nat) : List Byte :=
  [BitVec.ofNat 8 (n / 16777216), BitVec.ofNat 8 (n / 65536), BitVec.ofNat 8 (n / 256), BitVec.ofNat 8 n]

/-- The bits of a word in the order sent, most significant first. -/
def bitsMsbFirst {w : Nat} (x : BitVec w) : List Bool :=
  (List.range w).map fun i => x.getMsbD i

/-- One bit through the CRC register of generator x^16 + x^12 + x^5 + 1 (R169). -/
def crcBit (reg : BitVec 16) (bit : Bool) : BitVec 16 :=
  if reg.msb != bit then (reg <<< 1) ^^^ 0x1021#16 else reg <<< 1

/-- The CRC of a run of bytes after a register value. -/
def crcBytes (reg : BitVec 16) (bytes : List Byte) : BitVec 16 :=
  bytes.foldl (fun r b => (bitsMsbFirst b).foldl crcBit r) reg

/-- The CRC of a header and payload: preset 0xFFFF, no final inversion (R169). -/
def frameCrc (header : BitVec 16) (payload : List Byte) : BitVec 16 :=
  crcBytes ((bitsMsbFirst header).foldl crcBit 0xFFFF#16) payload

/-- The kind code (R169). -/
def FrameKind.code : FrameKind → Nat
  | .halt => 0 | .resume => 1 | .talkIntent => 2 | .talkBusy => 3 | .talkEnd => 4 | .blockAsk => 5
  | .blockGrant => 6 | .blockHeld => 7 | .blockRelease => 8 | .cue => 9 | .load => 10

/-- The class of a kind (R135, R142): 0 is the most urgent. -/
def FrameKind.cls : FrameKind → Nat
  | .halt | .resume => 0
  | .cue => 2
  | .load => 3
  | _ => 1

/-- The payload length of a kind (R169). -/
def FrameKind.length : FrameKind → Nat
  | .halt => 1 | .resume => 0 | .talkIntent => 3 | .talkBusy => 4 | .talkEnd => 0 | .blockAsk => 2
  | .blockGrant => 1 | .blockHeld => 2 | .blockRelease => 2 | .cue => 2 | .load => 4

/-- The kind of a code; codes 11 to 15 are no kind (R169). -/
def kindOfCode : Nat → Option FrameKind
  | 0 => some .halt | 1 => some .resume | 2 => some .talkIntent | 3 => some .talkBusy | 4 => some .talkEnd
  | 5 => some .blockAsk | 6 => some .blockGrant | 7 => some .blockHeld | 8 => some .blockRelease | 9 => some .cue
  | 10 => some .load | _ => none

/-- Header bits 15 to 14: the class (R169). -/
def Frame.cls (f : Frame) : Nat := (f.header.extractLsb' 14 2).toNat

/-- Header bits 13 to 8: the source station (R169). -/
def Frame.source (f : Frame) : Nat := (f.header.extractLsb' 8 6).toNat

/-- Header bits 7 to 4: the kind code (R169). -/
def Frame.kindCode (f : Frame) : Nat := (f.header.extractLsb' 4 4).toNat

/-- Header bits 3 to 0: the payload length (R169). -/
def Frame.length (f : Frame) : Nat := (f.header.extractLsb' 0 4).toNat

/-- Whether a received frame is valid as a frame of kind `k` (R141): a recessive end field, a matching CRC, the
kind's code, class and payload length, and a source from 1 to 62. -/
def Frame.valid (f : Frame) (k : FrameKind) : Bool :=
  f.endField == 0x7F#7 && f.crc == frameCrc f.header f.payload && f.kindCode == k.code && f.cls == k.cls &&
    f.length == k.length && f.payload.length == k.length && decide (1 ≤ f.source) && decide (f.source ≤ 62)

/-- The number in the payload byte at an offset (0 past the end). -/
def Frame.byte (f : Frame) (i : Nat) : Nat := (f.payload.getD i 0).toNat

/-- The two-byte number in the payload at an offset. -/
def Frame.word (f : Frame) (i : Nat) : Nat := f.byte i * 256 + f.byte (i + 1)

/-- A BLOCK_HELD cause byte: above 1 is read as BUSY (R169). -/
def heldCauseOf (n : Nat) : HeldCause := if n = 0 then .power else .busy

/-- A BLOCK_RELEASE outcome byte: above 2 is read as FAILED (R169). -/
def releaseOutcomeOf : Nat → ReleaseOutcome
  | 0 => .done
  | 1 => .cancel
  | _ => .failed

/-- What a receiver reads from the payload of a frame of kind `k` (R169): a priority and a supply group by their
low 3 bits, a speed class by its low 2 bits, a halted flag by flag bit 0. -/
def readBody (k : FrameKind) (f : Frame) : FrameBody :=
  match k with
  | .halt => .halt (if f.byte 0 = 0 then .stopInput else .line)
  | .resume => .resume
  | .talkIntent => .talkIntent (f.byte 0 % 8) (f.word 1)
  | .talkBusy => .talkBusy (f.byte 0) (f.byte 1 % 8) (f.word 2)
  | .talkEnd => .talkEnd
  | .blockAsk => .blockAsk (f.byte 0) (f.byte 1 % 4)
  | .blockGrant => .blockGrant (f.byte 0)
  | .blockHeld => .blockHeld (f.byte 0) (heldCauseOf (f.byte 1))
  | .blockRelease => .blockRelease (f.byte 0) (releaseOutcomeOf (f.byte 1))
  | .cue => .cue (f.byte 0) (f.byte 1)
  | .load => .load (f.word 0) (f.byte 2 % 8) (f.byte 3 % 2 = 1)

/-- The kind of a body. -/
def FrameBody.kind : FrameBody → FrameKind
  | .halt _ => .halt | .resume => .resume | .talkIntent _ _ => .talkIntent | .talkBusy _ _ _ => .talkBusy
  | .talkEnd => .talkEnd | .blockAsk _ _ => .blockAsk | .blockGrant _ => .blockGrant
  | .blockHeld _ _ => .blockHeld | .blockRelease _ _ => .blockRelease | .cue _ _ => .cue | .load _ _ _ => .load

/-- The class a body is sent in. -/
def FrameBody.cls (b : FrameBody) : Nat := b.kind.cls

/-- The payload bytes of a body (R169): every unused bit 0. -/
def FrameBody.payload : FrameBody → List Byte
  | .halt r => [match r with | .stopInput => 0#8 | .line => 1#8]
  | .resume => []
  | .talkIntent p d => BitVec.ofNat 8 p :: be16 d
  | .talkBusy dest p r => BitVec.ofNat 8 dest :: BitVec.ofNat 8 p :: be16 r
  | .talkEnd => []
  | .blockAsk dest c => [BitVec.ofNat 8 dest, BitVec.ofNat 8 c]
  | .blockGrant dest => [BitVec.ofNat 8 dest]
  | .blockHeld dest c => [BitVec.ofNat 8 dest, match c with | .power => 0#8 | .busy => 1#8]
  | .blockRelease dest o => [BitVec.ofNat 8 dest, match o with | .done => 0#8 | .cancel => 1#8 | .failed => 2#8]
  | .cue dest t => [BitVec.ofNat 8 dest, BitVec.ofNat 8 t]
  | .load w g h => be16 w ++ [BitVec.ofNat 8 g, if h then 1#8 else 0#8]

/-- The header of a frame (R169): class, source, kind and payload length, from bit 15 down. -/
def frameHeader (k : FrameKind) (source : Nat) : BitVec 16 :=
  BitVec.ofNat 2 k.cls ++ BitVec.ofNat 6 source ++ BitVec.ofNat 4 k.code ++ BitVec.ofNat 4 k.length

/-- The frame a station sends for a body (R169). -/
def encodeFrame (source : Nat) (b : FrameBody) : Frame :=
  { header := frameHeader b.kind source
    payload := b.payload
    crc := frameCrc (frameHeader b.kind source) b.payload
    endField := 0x7F#7 }

/-- The bits of a frame in the order sent (R169): the start bit, the header, the payload bytes, the CRC and the end
field, every field most significant bit first. -/
def Frame.bits (f : Frame) : List Bool :=
  false :: (bitsMsbFirst f.header ++ f.payload.flatMap bitsMsbFirst ++ bitsMsbFirst f.crc ++ bitsMsbFirst f.endField)

/-- The number in a run of bits, most significant first. -/
def beBits : List Bool → Nat :=
  List.foldl (fun acc b => acc * 2 + b.toNat) 0

/-- The field of `w` bits from an offset of a run of bits (R169). -/
def bitField (bits : List Bool) (offset w : Nat) : BitVec w :=
  BitVec.ofNat w (beBits ((bits.drop offset).take w))

/-- The frame that a run of bits spells from its start bit on (R169), with the payload length of its header; none when it
does not begin with a start bit or ends too soon. -/
def frameOfBits (bits : List Bool) : Option Frame :=
  let header := bitField bits 1 16
  let len := (header.extractLsb' 0 4).toNat
  if bits.head? = some false ∧ 40 + 8 * len ≤ bits.length then
    some
      { header := header
        payload := (List.range len).map fun i => bitField bits (17 + 8 * i) 8
        crc := bitField bits (17 + 8 * len) 16
        endField := bitField bits (33 + 8 * len) 7 }
  else none

/-- Whether the values of a body fit the fields its frame gives them: the values a sender uses (R169). -/
def FrameBody.fits : FrameBody → Bool
  | .talkIntent p d => decide (p < 8) && decide (d < 65536)
  | .talkBusy dest p r => decide (dest < 256) && decide (p < 8) && decide (r < 65536)
  | .blockAsk dest c => decide (dest < 256) && decide (c < 4)
  | .blockGrant dest => decide (dest < 256)
  | .blockHeld dest _ => decide (dest < 256)
  | .blockRelease dest _ => decide (dest < 256)
  | .cue dest t => decide (dest < 256) && decide (t < 256)
  | .load w g _ => decide (w < 65536) && decide (g < 8)
  | _ => true

/-- The bytes of a maintenance command record, code included (R170). An unknown code makes a record of one byte. -/
def recordLength (code : Byte) : Nat :=
  match code.toNat with
  | 0x03 => 4
  | 0x06 => 2
  | 0x07 => 2
  | 0x0A => 2
  | _ => 1

/-- Whether a code is in the table of R170. -/
def knownCode (code : Byte) : Bool := decide (1 ≤ code.toNat) && decide (code.toNat ≤ 0x0D)

/-- The command that the bytes a tool clocks in spell (R170): the record at their front, the bytes behind it not read.
An incomplete record spells none. `levels` is what the field inputs read, for an EXIT that restarts the station. -/
def decodeRecord (levels : Levels) : List Byte → Option Instr
  | [] => none
  | code :: rest =>
    match code.toNat, rest with
    | 0x01, _ => some .identify
    | 0x02, _ => some .status
    | 0x03, a :: b :: c :: _ => some (.setAddress (a ++ b ++ c))
    | 0x04, _ => some .read
    | 0x05, _ => some .readNext
    | 0x06, b :: _ => some (.load b)
    | 0x07, b :: _ => some (.loadNext b)
    | 0x08, _ => some .commit
    | 0x09, _ => some .eraseSector
    | 0x0A, s :: _ =>
      if s = 0x01#8 then some .eraseAllContent
      else if s = 0x02#8 then some .eraseAllEverything
      else some (.eraseAllScopeRefused s)
    | 0x0B, _ => some .faults
    | 0x0C, _ => some .clearFaults
    | 0x0D, _ => some (.exit levels)
    | _, _ => if knownCode code then none else some (.unknownCommand code)

/-- The record that a tool clocks in for a maintenance command (R170); none for a command of another kind. -/
def encodeRecord : Instr → Option (List Byte)
  | .identify => some [0x01#8]
  | .status => some [0x02#8]
  | .setAddress a => some [0x03#8, a.extractLsb' 16 8, a.extractLsb' 8 8, a.extractLsb' 0 8]
  | .read => some [0x04#8]
  | .readNext => some [0x05#8]
  | .load b => some [0x06#8, b]
  | .loadNext b => some [0x07#8, b]
  | .commit => some [0x08#8]
  | .eraseSector => some [0x09#8]
  | .eraseAllContent => some [0x0A#8, 0x01#8]
  | .eraseAllEverything => some [0x0A#8, 0x02#8]
  | .eraseAllScopeRefused s => some [0x0A#8, s]
  | .faults => some [0x0B#8]
  | .clearFaults => some [0x0C#8]
  | .exit _ => some [0x0D#8]
  | .unknownCommand code => some [code]
  | _ => none

/-- The command that a word spells by the bits of spec/opcode_table.json: no row of the table gives bits, so no
word spells one (DEDUCED, assumption 3). -/
def decodeTableWord (nbits w : Nat) : Option Instr :=
  match nbits, w with
  | _, _ => none

end Sys2Proof
end

