-- ==== Sys2Proof/Machine/State.lean ====
section
/-! DEFINITION. The state of the station as plain data: one record per block of 00_scope.md, the queue of waiting
commands, and `State.reset`. Fields marked "the model's own" are not in the manual; INVENTORY.md lists them. -/

namespace Sys2Proof.Machine

/-- Why the machine stops. -/
inductive Fault where
  /-- UNSAFE TO IGNORE, raised by `event`: the works of one event did not come to an end within `eventFuel`. The
  manual gives no end to such an event (01_scenes_and_the_scene_engine.md, section 1.8 step 4: a scene that loops
  its own cue back with cooldown 0 restarts itself at every pass). A stop is a safe difference: no claim about a next
  state is made (DESIGN CHOICE, assumption 15). -/
  | endlessEvent
deriving DecidableEq, Repr

/-- Why a command has no meaning. -/
inductive Refusal where
  /-- SAFE, raised by an arm of `exec` alone: the command is not modelled. No arm raises it. -/
  | notModelled (mnemonic : String)
deriving DecidableEq, Repr

/-! ## The station as a whole -/

/-- Which of its conditions the station is in (R156 to R158, R161). -/
inductive Phase where
  | powerOff | heldInReset | running | unconfigured | maintenance
deriving DecidableEq, Repr

/-- A slot and its instance mark, carried by every request of the Scene Engine (R10). -/
structure Requester where
  slot : Fin 4
  mark : BitVec 8
deriving DecidableEq, Repr

/-! ## Settings (R160, R171) -/

/-- An input's kind (02_visitor_inputs_and_bay_occupancy.md, section 2.1). -/
inductive InputKind where
  | unused | button | beam | entry | exit | stop | resume | arrive | depart
deriving DecidableEq, Repr

structure ChannelSettings where
  rating : Nat
  idleLevel : Nat
  haltLevel : Nat
deriving DecidableEq, Repr

structure DriveSettings where
  watts : Nat
  duties : Vector Nat 4
  softLow : Nat
  softHigh : Nat
  approach : Nat
  currentLimit : Nat
  tolerance : Nat
  stallTime : Nat
  reversed : Bool
deriving DecidableEq, Repr

structure InputSettings where
  kind : InputKind
  hysteresis : Nat
  threshold : Nat
  hold : Nat
deriving DecidableEq, Repr

/-- The settings of the configuration sector, as a run uses them (R160). -/
structure Settings where
  station : Nat
  group : Nat
  trackMode : Bool
  capacity : Nat
  baseShare : Nat
  hearing : List Nat
  upstream : Nat
  downstream : Nat
  settleRun : Nat
  bayVolume : Nat
  duckLevel : Nat
  idleSeconds : Nat
  quietSeconds : Nat
  faultMask : BitVec 16
  attendMask : BitVec 16
  channels : Vector ChannelSettings 12
  drives : Vector DriveSettings 4
  inputs : Vector InputSettings 8
deriving DecidableEq, Repr

/-! ## Scene Engine (R1 to R25) -/

/-- What a scene is bound to (section 1.1). A CUE source of 0 stands for any station. -/
inductive Trigger where
  | none | input (n : Fin 8) | cue (source : Nat) | enter | empty | start
deriving DecidableEq, Repr

inductive RepeatPolicy where
  | ignore | hold | restart
deriving DecidableEq, Repr

/-- A step as stored: its delay, action code and twelve argument bytes, decoded when issued (R1, R9). -/
structure StepRecord where
  delay : Nat
  action : Byte
  args : List Byte
deriving DecidableEq, Repr

structure Scene where
  cueTag : Nat
  trigger : Trigger
  priority : Nat
  policy : RepeatPolicy
  needsPresence : Bool
  cooldown : Nat
  abandon : Bool
  steps : List StepRecord
deriving DecidableEq, Repr

/-- What an AWAIT waits on (section 1.1). -/
inductive Subject where
  | narration | drive (d : Fin 4) | fade (c : Fin 12) | track
deriving DecidableEq, Repr

/-- The state of a slot's latest SAY (R2, R15). -/
inductive Handle where
  | none | queued | settling | playing | done | dropped | expired
deriving DecidableEq, Repr

/-- How an AWAIT completes by its subject (R19). -/
inductive AwaitOutcome where
  | done | failed | preempted
deriving DecidableEq, Repr

/-- Whether a busy slot is DELAYING or AWAITING, with its step deadline (R2). `completed` is the model's own: the AWAIT
of a slot that the event in progress has completed, until the slot goes on within that event; the first outcome stands
(R19; DESIGN CHOICE, assumption 34). -/
inductive Wait where
  | delaying (deadline : Tick)
  | awaiting (subject : Subject) (deadline : Option Tick)
  | completed (out : AwaitOutcome)
deriving DecidableEq, Repr

/-- The running instance of a slot that is not FREE (R2). `sayCount` is the model's own: how many SAYs the instance
has issued, so that a report about an earlier one can be told from one about the latest (R15; DEDUCED, assumption 17). -/
structure Running where
  scene : Fin 64
  priority : Nat
  startTime : Tick
  stepIndex : Nat
  wait : Wait
  handle : Handle
  sayCount : Nat
deriving DecidableEq, Repr

/-- An active slot (R2): FREE exactly when `run` is none; the mark is kept while FREE. -/
structure Slot where
  run : Option Running
  mark : BitVec 8
deriving DecidableEq, Repr

/-- An owner record (R11): the owning slot, and its priority when it took ownership. -/
structure Owner where
  slot : Fin 4
  priority : Nat
deriving DecidableEq, Repr

structure SceneEngine where
  scenes : Vector (Option Scene) 64
  slots : Vector Slot 4
  channelOwners : Vector (Option Owner) 12
  driveOwners : Vector (Option Owner) 4
  cooldowns : Vector (Option Tick) 64
  trackRequester : Option Requester
deriving DecidableEq, Repr

/-! ## Input Unit (R26 to R41) -/

/-- An input record (section 2.1). `latch` is the latch time when the latch is present. -/
structure Input where
  comparator : Bool
  debounced : Bool
  debounceCount : Nat
  latch : Option Tick
  lastActivation : Option Tick
deriving DecidableEq, Repr

/-- The bay activity state (R34). -/
inductive BayState where
  | occupied | empty | idle
deriving DecidableEq, Repr

structure InputUnit where
  inputs : Vector Input 8
  occupancy : Nat
  bay : BayState
  quietTimer : Option Tick
  idleTimer : Option Tick
deriving DecidableEq, Repr

/-! ## Lamp Fader (R42 to R57) -/

/-- A lamp channel record (R42); the rating is in the settings. `begun` is the model's own, the show time of the
fade's start; `dimmer` is the level the dimmer output has taken up (R50). -/
structure Lamp where
  programmed : Nat
  fadeStart : Nat
  target : Nat
  steps : Nat
  stepsDone : Nat
  fading : Bool
  requester : Option Requester
  output : Nat
  begun : Tick
  dimmer : Nat
deriving DecidableEq, Repr

/-! ## Share Calculator (R58 to R77) -/

/-- What an admission entry starts (R64, R66): a drive, by its pending kind; the send of R70; the start of R72. -/
inductive RequestKind where
  | driveRun | segmentSend | segmentStart
deriving DecidableEq, Repr

structure AdmissionEntry where
  kind : RequestKind
  drive : Fin 4
  watts : MilliWatt
  entered : Tick
deriving DecidableEq, Repr

structure Announcement where
  demand : Nat
  halted : Bool
  time : Tick
deriving DecidableEq, Repr

/-- The Share Calculator's state (R58), all powers in mW. -/
structure Share where
  lampDemand : MilliWatt
  motorDemand : MilliWatt
  startedDemand : MilliWatt
  ownDemand : MilliWatt
  peerSum : MilliWatt
  allowance : MilliWatt
  lampAllowance : MilliWatt
  admissions : List AdmissionEntry
  lastAnnouncement : Option Announcement
deriving DecidableEq, Repr

/-! ## Narration Player (R78 to R101) -/

/-- A present clip of the directory copy (R78). -/
structure Clip where
  start : Nat
  length : Nat
  gain : Nat
deriving DecidableEq, Repr

/-- A wait-queue entry (R85). The model's own: `sayNumber`, which SAY of its instance it is (R15), and `order`, the
place it took among all entries when it first entered, which ranks entries of equal priority and enqueue time. -/
structure SayEntry where
  slot : Fin 4
  mark : BitVec 8
  clip : Byte
  priority : Nat
  enqueued : Tick
  patience : Tick
  sayNumber : Nat
  order : Nat
deriving DecidableEq, Repr

inductive PlayerState where
  | idle | settling | playing | fadingOut
deriving DecidableEq, Repr

/-- A voice-table entry (R82): its station, TALKING or QUIET, and its expiry. -/
structure VoiceEntry where
  station : Nat
  talking : Bool
  expiry : Option Tick
deriving DecidableEq, Repr

/-- The player record (R81), the wait queue, the voice table, the directory copy and the audio output (R80). The
model's own: `samplesSent`, how many samples of the clip have been sent; `entered`, how many requests have entered the
wait queue (R85); `claim`, the number of the current claim, carried by its intent in the transmit queue (R91); and
`bounced`, whether a claim was ended by a discard and none has been made since (DESIGN CHOICE, assumption 9). -/
structure Player where
  state : PlayerState
  current : Option SayEntry
  intentSent : Bool
  windowEnd : Option Tick
  playStart : Option Tick
  fadeOutStart : Option Tick
  queue : List SayEntry
  voices : List VoiceEntry
  clips : Vector (Option Clip) 256
  audioOutput : Int
  samplesSent : Nat
  entered : Nat
  claim : Nat
  bounced : Bool
deriving DecidableEq, Repr

/-! ## Motor Unit (R102 to R118) -/

inductive DriveState where
  | unhomed | homing | idle | pendingPower | moving | faulted | track
deriving DecidableEq, Repr

inductive PendingKind where
  | move | home
deriving DecidableEq, Repr

/-- A drive record (R102). Times in ticks, but the blanking end, in ms of `State.clockMs`. The model's own:
`classInForce` (R105, R108, R109) and `brakeUntil`, the end of the brake of R116 and R117. The switches are held debounced (R113). -/
structure Drive where
  state : DriveState
  homed : Bool
  position : Nat
  travel : Nat
  pending : Option PendingKind
  target : Nat
  speedClass : Fin 4
  classInForce : Fin 4
  up : Bool
  braking : Bool
  stillTimer : Option Tick
  stallTimer : Option Tick
  samples : List Nat
  blankingEnd : Option Nat
  reversals : Nat
  requester : Option Requester
  brakeUntil : Option Tick
  homeClosed : Bool
  endClosed : Bool
  encA : Bool
  encB : Bool
deriving DecidableEq, Repr

/-! ## Track Block (R119 to R133) -/

/-- The block state (R119), with the ask phase of ASKING. -/
inductive TrackState where
  | empty | receiving | holding | askingPower | askingAsked | sending | faulted
deriving DecidableEq, Repr

/-- A timer that a halt may freeze with the ticks it had left (R119, R130). -/
inductive HaltTimer where
  | stopped | expiring (time : Tick) | frozen (left : Nat)
deriving DecidableEq, Repr

/-- The Track Block's record (R119). `exchange` is the model's own: how many SENDs have been taken, carried by the
BLOCK_ASKs of each (R140). -/
structure Track where
  state : TrackState
  peer : Option Nat
  speedClass : Fin 4
  running : Bool
  grantTimer : HaltTimer
  retryTimer : Option Tick
  giveUpTimer : Option Tick
  arriveSeen : Bool
  departSeen : Bool
  settle : HaltTimer
  exchange : Nat
deriving DecidableEq, Repr

/-! ## Line Interface (R134 to R148) -/

inductive LineState where
  | off | joining | active | mute | silent
deriving DecidableEq, Repr

/-- A frame of the transmit queue (R138): its body and age, whether it is in transmission (R134), and the claim of a
TALK_INTENT or the exchange of a BLOCK_ASK (the model's own). -/
structure TxEntry where
  body : FrameBody
  age : Tick
  inTransmission : Bool
  claim : Nat
deriving DecidableEq, Repr

structure Peer where
  station : Nat
  demand : Nat
  lastHeard : Tick
deriving DecidableEq, Repr

/-- The Line Interface's state. `heldLoad` is the LOAD held aside while another is in transmission (R138). -/
structure Line where
  state : LineState
  queue : List TxEntry
  heldLoad : Option TxEntry
  errors : Nat
  muteTimer : Option Tick
  joiningTimer : Option Tick
  stuckHold : Bool
  joiningHalt : Bool
  peers : List Peer
  peerFull : List Nat
deriving DecidableEq, Repr

/-! ## Fault list (R153 to R155) -/

inductive FaultKind where
  | configInvalid | duplicate | lineStuck | lineErrors | lineOverrun | peerFull | stall | overcurrent | limit
  | settle | unhomed | noPower | trackLost | sceneBad | halted | restart
deriving DecidableEq, Repr

/-- A fault record (R153, R170): times are 32-bit show times. -/
structure FaultRecord where
  kind : FaultKind
  detail : Byte
  first : BitVec 32
  last : BitVec 32
  count : Nat
deriving DecidableEq, Repr

/-- The fault list, oldest first, and the staff outputs (R155). -/
structure FaultList where
  records : List FaultRecord
  faultOutput : Bool
  attendOutput : Bool
deriving DecidableEq, Repr

/-! ## Maintenance port (R161 to R168) -/

/-- The target of the operation in progress (R161). -/
inductive Operation where
  | commit (row : Nat)
  | eraseSector (sector : Nat)
  | eraseContent
  | eraseEverything
deriving DecidableEq, Repr

/-- The maintenance port. `operation` holds the target and the end time in ms; BUSY is set while it is present.
`answer` holds the answer bytes of the command last taken (R170). -/
structure Port where
  pointer : BitVec 23
  latch : Vector Byte 256
  commitDone : Bool
  eraseDone : Bool
  late : Bool
  refused : Bool
  operation : Option (Operation × Nat)
  answer : List Byte
deriving DecidableEq, Repr

/-! ## Works: the internal signals of one event (the model's own) -/

/-- A trigger event (R4). -/
inductive TriggerEvent where
  | input (n : Fin 8) | cue (source tag : Nat) | enter | empty | start
deriving DecidableEq, Repr

/-- A piece of an event still to be taken by the Scene Engine or the player within the same event. -/
inductive Work where
  /-- R5: consider a trigger for one scene. -/
  | consider (ev : TriggerEvent) (n : Fin 64)
  /-- R6: the retake check of a scene. -/
  | retake (n : Fin 64)
  /-- R7, R8, R19: issue a slot's step whose deadline is now, and the zero-delay run after it. -/
  | runSlot (k : Fin 4)
  /-- R31: the end of the admission pass of an input of hold time 0. -/
  | latchPassEnd (i : Fin 8)
  /-- R19: the AWAIT of this instance has been completed, and the slot goes on. -/
  | awaitDone (k : Fin 4) (mark : BitVec 8)
  /-- R22: a late outcome that counts as a failure of this instance. -/
  | lateFailure (k : Fin 4) (mark : BitVec 8)
  /-- R95 step 4: the player becomes IDLE after the clip end's report and checks its start condition. -/
  | playerIdle
deriving DecidableEq, Repr

/-! ## The state -/

/-- The whole station. `clockMs` counts ms since the last restart: the show time is its tenth (`State.now`). The
model's own: `sampleClock` (the sixteenths of the present ms that have passed; DESIGN CHOICE, assumption 24), `pending`
(the commands waiting), `draws` (of free values; DESIGN CHOICE, assumption 34), `works` (empty between events) and
`announceCheck` (an event in progress owes the check of R75). -/
structure State where
  pending : List Instr
  phase : Phase
  clockMs : Nat
  sampleClock : Fin 16
  draws : Nat
  memory : List Host.Cell
  settings : Settings
  engine : SceneEngine
  inputs : InputUnit
  lamps : Vector Lamp 12
  share : Share
  player : Player
  drives : Vector Drive 4
  track : Track
  line : Line
  halt : Option HaltReason
  faults : FaultList
  port : Port
  works : List Work
  announceCheck : Bool
deriving DecidableEq, Repr

/-! ## Values at rest -/

/-- The settings while none are trusted (R39, R56, R158): every input and channel unused. -/
def Settings.untrusted : Settings :=
  { station := 0, group := 0, trackMode := false, capacity := 0, baseShare := 0, hearing := [], upstream := 0
    downstream := 0, settleRun := 0, bayVolume := 0, duckLevel := 0, idleSeconds := 0, quietSeconds := 0
    faultMask := 0, attendMask := 0
    channels := Vector.replicate 12 ⟨0, 0, 0⟩
    drives := Vector.replicate 4 ⟨0, Vector.replicate 4 0, 0, 0, 0, 0, 0, 0, false⟩
    inputs := Vector.replicate 8 ⟨.unused, 0, 0, 0⟩ }

/-- R25. -/
def SceneEngine.atRestart : SceneEngine :=
  { scenes := Vector.replicate 64 none, slots := Vector.replicate 4 ⟨none, 0⟩
    channelOwners := Vector.replicate 12 none, driveOwners := Vector.replicate 4 none
    cooldowns := Vector.replicate 64 none, trackRequester := none }

/-- R39. -/
def InputUnit.atRest : InputUnit :=
  { inputs := Vector.replicate 8 ⟨false, false, 0, none, none⟩, occupancy := 0, bay := .empty
    quietTimer := none, idleTimer := none }

/-- R42 for an unused channel, R57. -/
def Lamp.dark : Lamp :=
  { programmed := 0, fadeStart := 0, target := 0, steps := 0, stepsDone := 0, fading := false, requester := none
    output := 0, begun := 0, dimmer := 0 }

/-- R77. -/
def Share.atRestart : Share :=
  { lampDemand := 0, motorDemand := 0, startedDemand := 0, ownDemand := 0, peerSum := 0, allowance := 0
    lampAllowance := 0, admissions := [], lastAnnouncement := none }

/-- R101 without a configuration. -/
def Player.atRest : Player :=
  { state := .idle, current := none, intentSent := false, windowEnd := none, playStart := none
    fadeOutStart := none, queue := [], voices := [], clips := Vector.replicate 256 none, audioOutput := 0
    samplesSent := 0, entered := 0, claim := 0, bounced := false }

/-- R118. -/
def Drive.atRestart : Drive :=
  { state := .unhomed, homed := false, position := 0, travel := 0, pending := none, target := 0, speedClass := 0
    classInForce := 0, up := false, braking := false, stillTimer := none, stallTimer := none, samples := []
    blankingEnd := none, reversals := 0, requester := none, brakeUntil := none, homeClosed := false
    endClosed := false, encA := false, encB := false }

/-- R133, R119 with track mode off. -/
def Track.atRestart : Track :=
  { state := .empty, peer := none, speedClass := 0, running := false, grantTimer := .stopped, retryTimer := none
    giveUpTimer := none, arriveSeen := false, departSeen := false, settle := .stopped
    exchange := 0 }

/-- R148 without a configuration. -/
def Line.off : Line :=
  { state := .off, queue := [], heldLoad := none, errors := 0, muteTimer := none, joiningTimer := none
    stuckHold := false, joiningHalt := false, peers := [], peerFull := [] }

/-- R161: the port at the start of every restart. -/
def Port.atRestart : Port :=
  { pointer := 0, latch := Vector.replicate 256 0xFF#8, commitDone := false, eraseDone := false, late := false
    refused := false, operation := none, answer := [] }

/-- The station right after reset: a POWER_ON restart with MAINT_SEL high and the show memory erased, which R157 and
R158 leave UNCONFIGURED with a RESTART and a CONFIG_INVALID record (DESIGN CHOICE, assumption 1). -/
def State.reset : State :=
  { pending := [], phase := .unconfigured, clockMs := 0, sampleClock := 0, draws := 0, memory := []
    settings := Settings.untrusted, engine := SceneEngine.atRestart, inputs := InputUnit.atRest
    lamps := Vector.replicate 12 Lamp.dark, share := Share.atRestart, player := Player.atRest
    drives := Vector.replicate 4 Drive.atRestart, track := Track.atRestart, line := Line.off, halt := none
    faults := ⟨[⟨.restart, 0, 0, 0, 0⟩, ⟨.configInvalid, 0, 0, 0, 0⟩], false, false⟩
    port := Port.atRestart, works := [], announceCheck := false }

end Sys2Proof.Machine
end

