-- ==== Sys2Proof/Machine/Ops.lean ====
section
/-! DEFINITION. The named operations every block uses: show time, the show memory, the updates of one record, the
works of an event, and the fault list. -/

namespace Sys2Proof.Machine

/-! ## Time -/

/-- The show time in ticks since the last restart (00_scope.md, Units), unwrapped. -/
def State.now (s : State) : Tick := s.clockMs / 10

/-- The show time as the station keeps and shows it: a 32-bit count (00_scope.md, Units; R170). -/
def State.showTime (s : State) : BitVec 32 := BitVec.ofNat 32 s.now

/-- Whether a timer is running and its expiry has been reached. -/
def reached (timer : Option Tick) (now : Tick) : Bool :=
  match timer with
  | some t => decide (t ≤ now)
  | none => false

/-- Whether the station runs its show, so that its blocks run (R39, R56, R77, R101, R118, R133, R148, R149). -/
def State.inShow (s : State) : Bool := s.phase == .running

/-! ## Show memory (R159) -/

/-- What an address that is not listed reads as: an erased byte (R159, DESIGN CHOICE, assumption 10). -/
def Memory.erasedByte : Byte := 0xFF#8

/-- The number of bytes of the show memory (R159). -/
def Memory.size : Nat := 0x800000

/-- The byte at an address. -/
def Memory.read : List Host.Cell → Nat → Byte
  | [], _ => Memory.erasedByte
  | (k, b) :: m, a => if k = a then b else Memory.read m a

/-- The memory with one byte set, in canonical form: addresses rise, and no cell holds the erased byte. -/
def Memory.write : List Host.Cell → Nat → Byte → List Host.Cell
  | [], a, b => if b = Memory.erasedByte then [] else [(a, b)]
  | (k, v) :: m, a, b =>
    if a < k then (if b = Memory.erasedByte then (k, v) :: m else (a, b) :: (k, v) :: m)
    else if a = k then (if b = Memory.erasedByte then m else (a, b) :: m)
    else (k, v) :: Memory.write m a b

/-- The memory with the addresses from `lo` up to but not including `hi` erased (R166). -/
def Memory.erase (m : List Host.Cell) (lo hi : Nat) : List Host.Cell :=
  m.filter fun c => !(decide (lo ≤ c.1) && decide (c.1 < hi))

/-- An erase cut short (R168): each byte of the range holds its old value or the erased byte, on its own. -/
def Memory.eraseCut (m : List Host.Cell) (lo hi draw : Nat) : List Host.Cell :=
  m.filter fun c => !(decide (lo ≤ c.1) && decide (c.1 < hi)) || Config.cutKeepsOld draw c.1

/-- The byte a programmed byte ends at: 1 bits turn to 0, never back (R159, R165). -/
def Memory.programmed (m : List Host.Cell) (latch : Vector Byte 256) (row : Nat) (i : Fin 256) : Byte :=
  Memory.read m (row + i.val) &&& latch[i]

/-- The memory after the row at an address is programmed from the latch (R165). -/
def Memory.program (m : List Host.Cell) (latch : Vector Byte 256) (row : Nat) : List Host.Cell :=
  (List.finRange 256).foldl (fun acc i => Memory.write acc (row + i.val) (Memory.programmed m latch row i)) m

/-- A programming cut short (R168): each byte of the row holds its old value or the AND, on its own. -/
def Memory.programCut (m : List Host.Cell) (latch : Vector Byte 256) (row draw : Nat) : List Host.Cell :=
  (List.finRange 256).foldl (fun acc i =>
    if Config.cutKeepsOld draw (row + i.val) then acc
    else Memory.write acc (row + i.val) (Memory.programmed m latch row i)) m

/-- Whether the addresses of a memory rise strictly from a bound. -/
def Memory.risesFrom : Nat → List Host.Cell → Bool
  | _, [] => true
  | lo, (k, b) :: m => decide (lo ≤ k) && b != Memory.erasedByte && Memory.risesFrom (k + 1) m

/-- The canonical form: addresses rise strictly, no cell holds what an unlisted address reads as, and every address
lies in the show memory. -/
def Memory.wf (m : List Host.Cell) : Bool :=
  Memory.risesFrom 0 m && m.all fun c => decide (c.1 < Memory.size)

/-! ## One record of a block -/

def State.setSlot (s : State) (k : Fin 4) (r : Slot) : State :=
  { s with engine.slots := s.engine.slots.set k.val r k.isLt }

def State.setChannelOwner (s : State) (c : Fin 12) (o : Option Owner) : State :=
  { s with engine.channelOwners := s.engine.channelOwners.set c.val o c.isLt }

def State.setDriveOwner (s : State) (d : Fin 4) (o : Option Owner) : State :=
  { s with engine.driveOwners := s.engine.driveOwners.set d.val o d.isLt }

def State.setCooldown (s : State) (n : Fin 64) (t : Option Tick) : State :=
  { s with engine.cooldowns := s.engine.cooldowns.set n.val t n.isLt }

def State.setInput (s : State) (i : Fin 8) (r : Input) : State :=
  { s with inputs.inputs := s.inputs.inputs.set i.val r i.isLt }

def State.setLamp (s : State) (c : Fin 12) (r : Lamp) : State :=
  { s with lamps := s.lamps.set c.val r c.isLt }

def State.setDrive (s : State) (d : Fin 4) (r : Drive) : State :=
  { s with drives := s.drives.set d.val r d.isLt }

/-- Removes an input's latch (R31). -/
def State.clearLatch (s : State) (i : Fin 8) : State :=
  s.setInput i { s.inputs.inputs[i] with latch := none }

/-! ## Works of an event -/

/-- Adds works to the event in progress, after those already raised by the same piece of it. -/
def State.raise (s : State) (ws : List Work) : State := { s with works := s.works ++ ws }

/-! ## Fault list (R153 to R155) -/

/-- The fault kind code (R170). -/
def FaultKind.code : FaultKind → Nat
  | .configInvalid => 1 | .duplicate => 2 | .lineStuck => 3 | .lineErrors => 4 | .lineOverrun => 5
  | .peerFull => 6 | .stall => 7 | .overcurrent => 8 | .limit => 9 | .settle => 10 | .unhomed => 11
  | .noPower => 12 | .trackLost => 13 | .sceneBad => 14 | .halted => 15 | .restart => 16

/-- Whether a kind is in a mask: the bit one less than its code (R170). -/
def inMask (mask : BitVec 16) (k : FaultKind) : Bool := mask.getLsbD (k.code - 1)

/-- The two staff outputs for a list of records (R155): deasserted but while the show runs (R155, R161). -/
def State.indicators (s : State) : State :=
  { s with
    faults.faultOutput := s.inShow && s.faults.records.any fun r => inMask s.settings.faultMask r.kind
    faults.attendOutput := s.inShow && s.faults.records.any fun r => inMask s.settings.attendMask r.kind }

/-- Appends a record, dropping the oldest of a full list (R153). -/
def appendRecord (records : List FaultRecord) (r : FaultRecord) : List FaultRecord :=
  (if records.length < 8 then records else records.tail) ++ [r]

/-- The list after a fault: merged into the newest record when that is of the same kind and detail, appended
otherwise (R153). -/
def mergeFault (records : List FaultRecord) (kind : FaultKind) (detail : Byte) (t : BitVec 32) : List FaultRecord :=
  match records.getLast? with
  | some r =>
    if r.kind = kind ∧ r.detail = detail then
      records.dropLast ++ [{ r with last := t, count := min 255 (r.count + 1) }]
    else appendRecord records ⟨kind, detail, t, t, 0⟩
  | none => [⟨kind, detail, t, t, 0⟩]

/-- Records a fault at the present show time and evaluates the staff outputs (R153, R155). -/
def State.recordFault (s : State) (kind : FaultKind) (detail : Nat) : State :=
  State.indicators
    { s with faults.records := mergeFault s.faults.records kind (BitVec.ofNat 8 detail) s.showTime }

end Sys2Proof.Machine
end

