-- ==== Sys2Proof/Machine/Operands.lean ====
section
/-! DEFINITION. The stored records of R171: the configuration and its checks (R160), scene records (R1), steps (R9)
and clip directory entries (R78). -/

namespace Sys2Proof.Machine

/-- The number in one byte of the memory. -/
def byteAt (m : List Host.Cell) (a : Nat) : Nat := (Memory.read m a).toNat

/-- The number in a run of bytes of the memory, most significant first (R171). -/
def numberAt (m : List Host.Cell) (a len : Nat) : Nat :=
  beNat ((List.range len).map fun i => Memory.read m (a + i))

/-! ## Configuration sector -/

/-- The address of the protect byte (R171). -/
def protectAddress : Nat := 0x004

/-- The format marker (R171). -/
def formatMarker : Nat := 0x45493412

/-- The input kind of a code (R171); codes above 8 are not defined. -/
def inputKindOf : Nat → Option InputKind
  | 0 => some .unused | 1 => some .button | 2 => some .beam | 3 => some .entry | 4 => some .exit
  | 5 => some .stop | 6 => some .resume | 7 => some .arrive | 8 => some .depart | _ => none

def channelAddress (c : Fin 12) : Nat := 0x040 + 8 * c.val
def driveAddress (d : Fin 4) : Nat := 0x0A0 + 32 * d.val
def inputAddress (i : Fin 8) : Nat := 0x120 + 8 * i.val

def readChannel (m : List Host.Cell) (c : Fin 12) : ChannelSettings :=
  { rating := numberAt m (channelAddress c) 2
    idleLevel := numberAt m (channelAddress c + 2) 2
    haltLevel := numberAt m (channelAddress c + 4) 2 }

def readDrive (m : List Host.Cell) (d : Fin 4) : DriveSettings :=
  { watts := numberAt m (driveAddress d) 2
    duties := Vector.ofFn fun k : Fin 4 => numberAt m (driveAddress d + 2 + 2 * k.val) 2
    softLow := numberAt m (driveAddress d + 10) 2
    softHigh := numberAt m (driveAddress d + 12) 2
    approach := numberAt m (driveAddress d + 14) 2
    currentLimit := numberAt m (driveAddress d + 16) 2
    tolerance := byteAt m (driveAddress d + 18)
    stallTime := byteAt m (driveAddress d + 19)
    reversed := decide (byteAt m (driveAddress d + 20) = 1) }

def readInput (m : List Host.Cell) (i : Fin 8) : InputSettings :=
  { kind := (inputKindOf (byteAt m (inputAddress i))).getD .unused
    hysteresis := byteAt m (inputAddress i + 1)
    threshold := numberAt m (inputAddress i + 2) 2
    hold := numberAt m (inputAddress i + 4) 2 }

/-- The settings as the configuration sector holds them (R171). -/
def readSettings (m : List Host.Cell) : Settings :=
  { station := byteAt m 0x005
    group := byteAt m 0x006
    trackMode := decide (byteAt m 0x007 = 1)
    capacity := numberAt m 0x008 2
    baseShare := numberAt m 0x00A 2
    hearing := (List.range 4).map fun i => byteAt m (0x00C + i)
    upstream := byteAt m 0x010
    downstream := byteAt m 0x011
    settleRun := numberAt m 0x012 2
    bayVolume := numberAt m 0x014 2
    duckLevel := numberAt m 0x016 2
    idleSeconds := numberAt m 0x018 2
    quietSeconds := numberAt m 0x01A 2
    faultMask := BitVec.ofNat 16 (numberAt m 0x01C 4)
    attendMask := BitVec.ofNat 16 (numberAt m 0x020 4)
    channels := Vector.ofFn (readChannel m)
    drives := Vector.ofFn (readDrive m)
    inputs := Vector.ofFn (readInput m) }

/-- Whether a number lies in a range, both ends included. -/
def within (n lo hi : Nat) : Bool := decide (lo ≤ n) && decide (n ≤ hi)

/-- R160 check 2 for one channel. -/
def ChannelSettings.inRange (c : ChannelSettings) : Bool :=
  within c.rating 0 500 && within c.idleLevel 0 1000 && within c.haltLevel 0 1000

/-- R160 check 2 for one drive, but for its encoder direction code. -/
def DriveSettings.inRange (d : DriveSettings) : Bool :=
  within d.watts 0 200 && ((List.finRange 4).all fun k => within d.duties[k] 0 1000) &&
    within d.approach 0 4095 && within d.currentLimit 0 1023 && within d.stallTime 5 200

/-- R160 check 2 for one input, but for its kind code. -/
def InputSettings.inRange (i : InputSettings) : Bool :=
  within i.hysteresis 0 200 && within i.threshold 0 1000 && within i.hold 0 1000

/-- R160 check 2 for the numbers of the settings. -/
def Settings.inRange (c : Settings) : Bool :=
  within c.station 1 62 && within c.group 0 7 && within c.capacity 100 60000 &&
    c.hearing.all (fun n => within n 0 62) && within c.upstream 0 62 && within c.downstream 0 62 &&
    within c.settleRun 0 1000 && within c.bayVolume 0 1000 && within c.duckLevel 0 1000 &&
    within c.idleSeconds 10 3600 && within c.quietSeconds 60 3600 &&
    ((List.finRange 12).all fun k => c.channels[k].inRange) &&
    ((List.finRange 4).all fun k => c.drives[k].inRange) &&
    ((List.finRange 8).all fun k => c.inputs[k].inRange)

/-- R160 check 2 for the coded settings: track mode, encoder directions, input kinds and the two masks. -/
def codesDefined (m : List Host.Cell) : Bool :=
  within (byteAt m 0x007) 0 1 && ((List.finRange 4).all fun d => within (byteAt m (driveAddress d + 20)) 0 1) &&
    ((List.finRange 8).all fun i => within (byteAt m (inputAddress i)) 0 8) &&
    decide (numberAt m 0x01C 4 < 65536) && decide (numberAt m 0x020 4 < 65536)

/-- How many inputs are of a kind. -/
def Settings.countKind (c : Settings) (k : InputKind) : Nat :=
  ((List.finRange 8).filter fun i => c.inputs[i].kind == k).length

/-- R160 checks 3 to 7. -/
def Settings.crossChecks (c : Settings) : Bool :=
  decide (c.baseShare ≤ c.capacity) && c.hearing.all (fun n => n != c.station) &&
    c.upstream != c.station && c.downstream != c.station &&
    ((List.finRange 4).all fun d => decide (c.drives[d].softLow ≤ c.drives[d].softHigh)) &&
    (!c.trackMode || (decide (c.countKind .arrive ≤ 1) && decide (c.countKind .depart ≤ 1)))

/-- Why a configuration fails: FORMAT or FIELD (R154, R160). -/
inductive ConfigCause where
  | format | field
deriving DecidableEq, Repr

/-- The coded detail of a CONFIG_INVALID record (R170). -/
def ConfigCause.code : ConfigCause → Nat
  | .format => 0
  | .field => 1

/-- The first failing check of R160, none when the configuration is valid. -/
def configCheck (m : List Host.Cell) : Option ConfigCause :=
  if numberAt m 0x000 4 ≠ formatMarker then some .format
  else if codesDefined m && (readSettings m).inRange && (readSettings m).crossChecks then none
  else some .field

/-! ## Scene records -/

/-- The address of a scene record (R159). -/
def sceneAddress (n : Fin 64) : Nat := 0x001000 + 512 * n.val

/-- The trigger of a record by its kind and argument bytes; none when R1 makes the record bad. -/
def triggerOf (kind arg : Nat) : Option Trigger :=
  match kind with
  | 0 => some .none
  | 1 => if h : arg < 8 then some (.input ⟨arg, h⟩) else none
  | 2 => if arg ≤ 62 then some (.cue arg) else none
  | 3 => some .enter
  | 4 => some .empty
  | 5 => some .start
  | _ => none

/-- The repeat policy of a code; 3 is read as IGNORE (R171). -/
def policyOf : Nat → RepeatPolicy
  | 1 => .hold
  | 2 => .restart
  | _ => .ignore

/-- A step record (R171). -/
def readStep (m : List Host.Cell) (a : Nat) : StepRecord :=
  { delay := numberAt m a 2, action := Memory.read m (a + 2)
    args := (List.range 12).map fun i => Memory.read m (a + 3 + i) }

/-- What a place of the scene area holds (R1). -/
inductive ScenePlace where
  | absent | bad | present (scene : Scene)
deriving DecidableEq, Repr

/-- The scene record of a number (R1, R171). -/
def readScene (m : List Host.Cell) (n : Fin 64) : ScenePlace :=
  let a := sceneAddress n
  if byteAt m a = 0xFF then .absent
  else
    let flags := byteAt m (a + 4)
    let count := byteAt m (a + 6)
    match triggerOf (byteAt m a) (byteAt m (a + 1)) with
    | none => .bad
    | some trigger =>
      if within count 1 32 then
        .present
          { cueTag := byteAt m (a + 2), trigger := trigger, priority := byteAt m (a + 3) % 8
            policy := policyOf (flags % 4), needsPresence := decide (flags / 4 % 2 = 1)
            cooldown := byteAt m (a + 5), abandon := decide (flags / 8 % 2 = 1)
            steps := (List.range count).map fun i => readStep m (a + 32 + 15 * i) }
      else .bad

/-- The scene a place enters in the table: a bad record is entered as absent (R1). -/
def ScenePlace.scene? : ScenePlace → Option Scene
  | .present scene => some scene
  | _ => none

/-! ## Steps -/

/-- A decoded step (section 1.1), its arguments read by R171 and not yet clamped, but for the SAY priority. -/
inductive Action where
  | fade (channels : BitVec 12) (target duration : Nat)
  | say (clip : Byte) (priority patience : Nat)
  | move (d : Fin 4) (target : Nat) (speedClass : Fin 4)
  | home (d : Fin 4)
  | send (speedClass : Fin 4)
  | await (subject : Subject) (limit : Nat)
  | cue (dest tag : Nat)
deriving DecidableEq, Repr

def StepRecord.byte (r : StepRecord) (i : Nat) : Nat := (r.args.getD i 0).toNat
def StepRecord.word (r : StepRecord) (i : Nat) : Nat := r.byte i * 256 + r.byte (i + 1)

/-- A speed class by its low 2 bits (R171). -/
def speedClassOf (n : Nat) : Fin 4 := Fin.ofNat 4 n

/-- The AWAIT subject of a code and number (R9, R171); none when it cannot be decoded. -/
def subjectOf (trackMode : Bool) (code number : Nat) : Option Subject :=
  match code with
  | 0 => some .narration
  | 1 =>
    if h : number < 4 then (if number = 3 ∧ trackMode = true then none else some (.drive ⟨number, h⟩)) else none
  | 2 => if h : number < 12 then some (.fade ⟨number, h⟩) else none
  | 3 => some .track
  | _ => none

/-- The step as it is issued; none when R9 says that it cannot be decoded. -/
def decodeStep (trackMode : Bool) (r : StepRecord) : Option Action :=
  match r.action.toNat with
  | 1 => some (.fade (BitVec.ofNat 12 (r.word 0)) (r.word 2) (r.word 4))
  | 2 => some (.say (r.args.getD 0 0) (min 7 (r.byte 1)) (r.byte 2))
  | 3 => if h : r.byte 0 < 4 then some (.move ⟨r.byte 0, h⟩ (r.word 1) (speedClassOf (r.byte 3))) else none
  | 4 => if h : r.byte 0 < 4 then some (.home ⟨r.byte 0, h⟩) else none
  | 5 => some (.send (speedClassOf (r.byte 0)))
  | 6 => (subjectOf trackMode (r.byte 0) (r.byte 1)).map fun subject => .await subject (r.word 2)
  | 7 => if r.byte 0 ≤ 62 then some (.cue (r.byte 0) (r.byte 1)) else none
  | _ => none

/-! ## Clip directory -/

/-- The address of a directory entry (R159). -/
def clipAddress (n : Fin 256) : Nat := 0x009000 + 16 * n.val

/-- The clip of a directory entry; none when R78 makes it absent. -/
def readClip (m : List Host.Cell) (n : Fin 256) : Option Clip :=
  let a := clipAddress n
  if byteAt m a = 0xA5 then
    let start := numberAt m (a + 1) 3
    let length := numberAt m (a + 4) 4
    if within length 1 8000000 && decide (0x00A000 ≤ start) && decide (start + length ≤ 0x800000) then
      some ⟨start, length, min 1000 (numberAt m (a + 8) 2)⟩
    else none
  else none

end Sys2Proof.Machine
end

