-- ==== Sys2Proof/Machine/Flags.lean ====
section
/-! DEFINITION. The flags and levels a block reads from the state: the port's status byte (R163, R170), the STOP
level (R32), a beam (R33), and the reads other blocks make of the engine, the player and the line. -/

namespace Sys2Proof.Machine

/-- BUSY is set while an operation is in progress (R163). -/
def State.busy (s : State) : Bool := s.port.operation.isSome

/-- The status byte (R170). -/
def State.statusByte (s : State) : Byte :=
  BitVec.ofNat 8 (s.busy.toNat + 2 * s.port.commitDone.toNat + 4 * s.port.eraseDone.toNat +
    8 * s.port.late.toNat + 16 * s.port.refused.toNat)

/-- Whether some input of a kind has its debounced state active. -/
def State.anyActive (s : State) (k : InputKind) : Bool :=
  (List.finRange 8).any fun i => s.settings.inputs[i].kind == k && s.inputs.inputs[i].debounced

/-- The STOP level (R32). -/
def State.stopLevel (s : State) : Bool := s.anyActive .stop

/-- Whether the track's ARRIVE or DEPART beam is broken (section 2.2: exactly when its input is active). -/
def State.beamBroken (s : State) (k : InputKind) : Bool := s.anyActive k

/-- Whether the station is HALTED (R149). -/
def State.halted (s : State) : Bool := s.halt.isSome

/-- Whether every voice-table entry is QUIET (R82). -/
def State.allQuiet (s : State) : Bool := s.player.voices.all fun v => !v.talking

/-- Whether the line receives (R141). -/
def LineState.receives (l : LineState) : Bool := l != .off

/-- Whether drive 3 is the track segment (R117). -/
def State.isSegment (s : State) (d : Fin 4) : Bool := s.settings.trackMode && d == 3

/-- Whether a channel is used (R55). -/
def State.used (s : State) (c : Fin 12) : Bool := s.settings.channels[c].rating != 0

/-- The running instance of a slot when its mark is the given one (R10). -/
def State.instanceOf (s : State) (k : Fin 4) (mark : BitVec 8) : Option Running :=
  if s.engine.slots[k].mark = mark then s.engine.slots[k].run else none

/-- Whether a slot is AWAITING a subject (R19). -/
def Slot.awaits (r : Slot) (subject : Subject) : Bool :=
  match r.run with
  | some i =>
    match i.wait with
    | .awaiting x _ => x == subject
    | .delaying _ => false
    | .completed _ => false
  | none => false

/-- Whether a frame of the transmit queue is in transmission (R134). -/
def State.transmitting (s : State) : Bool := s.line.queue.any fun e => e.inTransmission

/-- Whether a destination names a station (R169). -/
def namesStation (dest : Nat) : Bool := decide (1 ≤ dest) && decide (dest ≤ 62)

/-- A power setting in mW (00_scope.md, Units). -/
def milli (watts : Nat) : MilliWatt := watts * 1000

/-- A division rounded up (00_scope.md, Rounding). -/
def ceilDiv (n d : Nat) : Nat := (n + d - 1) / d

end Sys2Proof.Machine
end

