-- ==== Sys2Proof/Machine/Reports.lean ====
section
/-! DEFINITION. The reports that come back to the Scene Engine (R10, R15, R19): what a block that finishes a piece of
work raises for the slots that wait on it. -/

namespace Sys2Proof.Machine

/-- A slot's AWAIT completes when it waits on this subject at this moment (R19). Its outcome stands from here on, and the
slot goes on within the same event. -/
def State.endAwait (s : State) (subject : Subject) (out : AwaitOutcome) (k : Fin 4) : State :=
  match s.engine.slots[k].run with
  | some i =>
    if s.engine.slots[k].awaits subject then
      State.raise (s.setSlot k { s.engine.slots[k] with run := some { i with wait := .completed out } })
        [.awaitDone k s.engine.slots[k].mark]
    else s
  | none => s

/-- A subject's event completes every AWAIT on it (R19, DEDUCED, assumption 14), whoever asked for the work. -/
def State.completeAwaits (s : State) (subject : Subject) (out : AwaitOutcome) : State :=
  (List.finRange 4).foldl (fun t k => t.endAwait subject out k) s

/-- A late outcome that reaches the slot which asked for the work, unless it is AWAITING that work, when the outcome
completes its AWAIT and is the one failure (R22). -/
def State.lateOutcome (s : State) (subject : Subject) (r : Requester) : State :=
  if (s.instanceOf r.slot r.mark).isSome && !(s.engine.slots[r.slot].awaits subject) then
    s.raise [.lateFailure r.slot r.mark]
  else s

/-- Whether a handle state completes an AWAIT NARRATION, and how (R19). -/
def Handle.outcome? : Handle → Option AwaitOutcome
  | .done => some .done
  | .dropped => some .failed
  | .expired => some .failed
  | _ => Option.none

/-- A report of the Narration Player about one SAY (R15): it moves the slot's handle when it is about the latest SAY of
the slot's present instance, and is dropped otherwise (R10). -/
def State.reportSay (s : State) (e : SayEntry) (h : Handle) : State :=
  match s.instanceOf e.slot e.mark with
  | some i =>
    if i.sayCount = e.sayNumber then
      let t := s.setSlot e.slot { s.engine.slots[e.slot] with run := some { i with handle := h } }
      match h.outcome? with
      | some out => t.endAwait .narration out e.slot
      | none => t
    else s
  | none => s

end Sys2Proof.Machine
end

