-- ==== Sys2Proof/Machine/WaitQueue.lean ====
section
/-! DEFINITION. The narration wait queue (R85 to R89) and the return of a claim to it (R93). -/

namespace Sys2Proof.Machine

/-- Whether an entry comes before another in queue order (R85): higher priority first, then older enqueue time, then
the one that entered first. -/
def SayEntry.before (a b : SayEntry) : Bool :=
  decide (b.priority < a.priority) ||
    (a.priority == b.priority &&
      (decide (a.enqueued < b.enqueued) || (a.enqueued == b.enqueued && decide (a.order < b.order))))

/-- The queue with an entry at its place in queue order (R85). -/
def insertSay (e : SayEntry) : List SayEntry → List SayEntry
  | [] => [e]
  | x :: xs => if e.before x then e :: x :: xs else x :: insertSay e xs

/-- Whether an entry is for a slot and clip (R86). -/
def SayEntry.isFor (e : SayEntry) (k : Fin 4) (clip : Byte) : Bool := e.slot == k && e.clip == clip

def State.setSayQueue (s : State) (q : List SayEntry) : State := { s with player.queue := q }

/-- Adds an entry that reports QUEUED (R86). -/
def State.enqueueSay (s : State) (e : SayEntry) : State :=
  (s.setSayQueue (insertSay e s.player.queue)).reportSay e .queued

/-- Adds a new entry, behind every entry that has entered before it with its priority and time (R85, R86). -/
def State.addSay (s : State) (e : SayEntry) : State :=
  State.enqueueSay { s with player.entered := s.player.entered + 1 } { e with order := s.player.entered }

/-- R93, the return of a claim's request: expired (DEDUCED, assumption 35), merged with the queued entry of its slot
and clip, which takes the earlier of the two places in the order of entering too (DESIGN CHOICE, assumption 42), or
queued with the lowest-ranked of nine dropped. -/
def State.returnSay (s : State) (e : SayEntry) : State :=
  if e.patience ≤ s.now then s.reportSay e .expired
  else
    match s.player.queue.find? fun x => x.isFor e.slot e.clip with
    | some x =>
      let others := s.player.queue.filter fun y => !y.isFor e.slot e.clip
      s.setSayQueue (insertSay { x with enqueued := min x.enqueued e.enqueued, order := min x.order e.order } others)
    | none =>
      let q := insertSay e s.player.queue
      if q.length ≤ 8 then (s.setSayQueue q).reportSay e .queued
      else
        match q.getLast? with
        | some last =>
          let t := (s.setSayQueue q.dropLast).reportSay last .dropped
          if last = e then t else t.reportSay e .queued
        | none => s

/-- The claim ends and its request returns to the queue: R93 steps 2 and 3 and the reconciliation. R93 makes the window
end absent; that the intent status is WAITING is the model's (DESIGN CHOICE, assumption 53). -/
def State.endClaim (s : State) : State :=
  match s.player.current with
  | some e =>
    State.returnSay
      { s with player.state := .idle, player.current := none, player.intentSent := false
               player.windowEnd := none } e
  | none => { s with player.state := .idle, player.intentSent := false, player.windowEnd := none }

/-- The outcome "discarded" of a claim's TALK_INTENT (R91): a settling player backs off with no TALK_END. The check of
R93 is made as soon as the transmit queue has a place for an intent (`State.retryClaim`; DESIGN CHOICE,
assumption 9). -/
def State.intentDiscarded (s : State) (claim : Nat) : State :=
  if s.player.state = .settling ∧ s.player.intentSent = false ∧ s.player.claim = claim then
    { s.endClaim with player.bounced := true }
  else s

end Sys2Proof.Machine
end

