-- ==== Sys2Proof/Machine/Transmit.lean ====
section
/-! DEFINITION. The transmit queue: handing a frame over, displacement and withdrawal (R138 to R140). -/

namespace Sys2Proof.Machine

/-- The queue with a frame at its place in queue order (R138): lower class first, behind the frames of its own class. -/
def insertTx (e : TxEntry) : List TxEntry → List TxEntry
  | [] => [e]
  | x :: xs => if e.body.cls < x.body.cls then e :: x :: xs else x :: insertTx e xs

/-- The last entry of the queue that meets a test, and the queue without it. -/
def removeLast (p : TxEntry → Bool) : List TxEntry → Option (TxEntry × List TxEntry)
  | [] => none
  | x :: xs =>
    match removeLast p xs with
    | some (y, ys) => some (y, x :: ys)
    | none => if p x then some (x, xs) else none

def TxEntry.isLoad (e : TxEntry) : Bool := e.body.kind == .load
def TxEntry.isIntent (e : TxEntry) : Bool := e.body.kind == .talkIntent
def TxEntry.isAsk (e : TxEntry) : Bool := e.body.kind == .blockAsk

def State.setTxQueue (s : State) (q : List TxEntry) : State := { s with line.queue := q }

/-- A frame is discarded (R139): LINE_OVERRUN with its class, and the player is told of a TALK_INTENT. -/
def State.discardTx (s : State) (e : TxEntry) : State :=
  let t := s.recordFault .lineOverrun e.body.cls
  if e.isIntent then t.intentDiscarded e.claim else t

/-- Enters a frame at its place, by displacement when the queue holds 8 frames (R138, R139). -/
def State.enterTx (s : State) (e : TxEntry) : State :=
  if s.line.queue.length < 8 then s.setTxQueue (insertTx e s.line.queue)
  else
    match removeLast (fun x => x.isLoad && !x.inTransmission) s.line.queue with
    | some (y, ys) => (s.setTxQueue (insertTx e ys)).discardTx y
    | none =>
      match removeLast (fun x => !x.inTransmission && decide (e.body.cls < x.body.cls)) s.line.queue with
      | some (y, ys) => (s.setTxQueue (insertTx e ys)).discardTx y
      | none => s.discardTx e

/-- Hands a frame of a claim or exchange over to the transmit queue (R138): a LOAD replaces the LOAD that waits, and is
held aside while that one is in transmission. -/
def State.handOverFor (s : State) (claim : Nat) (body : FrameBody) : State :=
  let e : TxEntry := ⟨body, s.now, false, claim⟩
  if e.isLoad then
    if s.line.queue.any fun x => x.isLoad && x.inTransmission then { s with line.heldLoad := some e }
    else if s.line.queue.any fun x => x.isLoad then
      s.setTxQueue (s.line.queue.map fun x => if x.isLoad then e else x)
    else s.enterTx e
  else s.enterTx e

/-- Hands a frame over to the transmit queue. -/
def State.handOver (s : State) (body : FrameBody) : State := s.handOverFor 0 body

/-- Withdraws the TALK_INTENT of a claim that waits in the queue (R140). -/
def State.withdrawIntent (s : State) (claim : Nat) : State :=
  s.setTxQueue (s.line.queue.filter fun e => !(e.isIntent && e.claim == claim && !e.inTransmission))

/-- Whether the TALK_INTENT of a claim is in transmission (R140). -/
def State.intentInTransmission (s : State) (claim : Nat) : Bool :=
  s.line.queue.any fun e => e.isIntent && e.claim == claim && e.inTransmission

/-- Hands over a BLOCK_ASK of the present exchange (R122). -/
def State.handOverAsk (s : State) : State :=
  s.handOverFor s.track.exchange (.blockAsk (s.track.peer.getD 0) s.track.speedClass.val)

/-- Withdraws the BLOCK_ASK of the present exchange that waits in the queue (R140). One of an earlier exchange, which was
in transmission when that exchange withdrew it, stays in the queue. -/
def State.withdrawBlockAsk (s : State) : State :=
  s.setTxQueue (s.line.queue.filter fun e => !(e.isAsk && e.claim == s.track.exchange && !e.inTransmission))

/-- Whether an earlier BLOCK_ASK waits in the queue, not in transmission (R122), one of an earlier exchange too (DEDUCED,
assumption 49). -/
def State.askWaiting (s : State) : Bool := s.line.queue.any fun e => e.isAsk && !e.inTransmission

end Sys2Proof.Machine
end

