-- ==== Sys2Proof/Machine/Player.lean ====
section
/-! DEFINITION. The Narration Player: SAY requests, claims, back-off, play, fade-out and the audio output
(R78 to R101). -/

namespace Sys2Proof.Machine

/-- The directory copy's entry for a clip number (R78). -/
def State.clip? (s : State) (clip : Byte) : Option Clip := s.player.clips[clip.toNat]'(clip.isLt)

/-- A clip's duration in ticks: 160 samples to a tick, rounded up (R79). -/
def Clip.duration (c : Clip) : Nat := ceilDiv c.length 160

/-- The duration of the clip of a request; 0 for an absent clip, which no request names (R85). -/
def State.durationOf (s : State) (clip : Byte) : Nat := ((s.clip? clip).map Clip.duration).getD 0

/-! ## Audio output -/

/-- R97: ducked while some voice-table entry is TALKING. -/
def State.ducked (s : State) : Bool := !s.allQuiet

/-- The effective gain of a clip at the present time (R80, R97, R98). -/
def State.effectiveGain (s : State) (c : Clip) : Nat :=
  let base := c.gain * s.settings.bayVolume / 1000
  let gain := if s.ducked then base * s.settings.duckLevel / 1000 else base
  match s.player.state, s.player.fadeOutStart with
  | .fadingOut, some t => gain * (20 - (s.now - t)) / 20
  | _, _ => gain

/-- The output value of a sample at a gain, rounded toward zero (R80). -/
def sampleOutput (sample : Byte) (gain : Nat) : Int := (sample.toInt * 16 * (gain : Int)).tdiv 1000

/-- The output value of the n-th sample of a clip if it is sent now. -/
def State.sampleNow (s : State) (c : Clip) (n : Nat) : Int :=
  sampleOutput (Memory.read s.memory (c.start + n)) (s.effectiveGain c)

/-- Sends the next sample of the clip being played, at the gain in force (R80, R95). With none left to send, the output
keeps the last value until the clip end (DESIGN CHOICE, assumption 39). -/
def State.sendSample (s : State) : State :=
  match s.player.current, s.player.playStart with
  | some e, some _ =>
    match s.clip? e.clip with
    | some c =>
      if s.player.samplesSent < c.length then
        { s with
          player.audioOutput := s.sampleNow c s.player.samplesSent, player.samplesSent := s.player.samplesSent + 1 }
      else s
    | none => s
  | _, _ => s

/-! ## Claims -/

/-- Ends the player's work: IDLE, nothing current, output 0 (R95, R98, R99). R99 makes the window end, the play start and
the fade-out start absent; that they are absent after a clip end and a fade-out end too, and that the intent status is
WAITING after each of the three, is the model's (DESIGN CHOICE, assumption 53). -/
def State.playerStopped (s : State) : State :=
  { s with player.state := .idle, player.current := none, player.intentSent := false, player.windowEnd := none
           player.playStart := none, player.fadeOutStart := none, player.audioOutput := 0
           player.samplesSent := 0 }

/-- R90: whether the player may take the head of its queue. -/
def State.mayStart (s : State) : Bool :=
  s.player.state == .idle && s.line.state == .active && s.allQuiet

/-- R90: takes the head of the queue when all four conditions hold, and claims with a TALK_INTENT. -/
def State.checkStart (s : State) : State :=
  match s.player.queue with
  | [] => s
  | e :: rest =>
    if s.mayStart then
      let t : State :=
        { s with player.queue := rest, player.current := some e, player.state := .settling
                 player.intentSent := false, player.windowEnd := none, player.claim := s.player.claim + 1
                 player.bounced := false }
      (t.reportSay e .settling).handOverFor t.player.claim
        (.talkIntent e.priority (ceilDiv (s.durationOf e.clip) 10))
    else s

/-- Whether a TALK_INTENT handed over now would find a place in the transmit queue (R138, R139). -/
def State.claimFits (s : State) : Bool :=
  decide (s.line.queue.length < 8) ||
    s.line.queue.any fun x => !x.inTransmission && decide (FrameKind.talkIntent.cls < x.body.cls)

/-- The check of R93 after a discard, as soon as an intent would find a place (DESIGN CHOICE, assumption 9): made
wherever a place can come free in the transmit queue. -/
def State.retryClaim (s : State) : State :=
  if s.player.bounced && s.claimFits then State.checkStart { s with player.bounced := false } else s

/-- R93: a back-off. The waiting intent is withdrawn, or a TALK_END follows it; the request returns to the queue; the
start condition is checked. -/
def State.backOff (s : State) : State :=
  let t :=
    if s.player.intentSent = false ∧ s.intentInTransmission s.player.claim = false then
      s.withdrawIntent s.player.claim
    else s.handOver .talkEnd
  t.endClaim.checkStart

/-- R91, R100: a change of line state reaches the player. -/
def State.playerLineChanged (s : State) : State :=
  if s.line.state = .active then s.checkStart
  else if s.player.state = .settling ∧ s.player.intentSent = false then s.backOff
  else s

/-! ## SAY requests (R86, R87) -/

/-- Whether a request finds a place: its entry is replaced, there is room, or the lowest-ranked entry gives way. -/
def State.sayAccepted (s : State) (e : SayEntry) : Bool :=
  (s.player.queue.any fun x => x.isFor e.slot e.clip) || decide (s.player.queue.length < 8) ||
    (match s.player.queue.getLast? with
     | some last => decide (last.priority < e.priority)
     | none => false)

/-- An accepted request enters the queue (R86, R87), before the start condition is checked. A replacement keeps the place
of the entry it replaces among entries of equal priority and enqueue time (R85). -/
def State.acceptSay (s : State) (e : SayEntry) : State :=
  match s.player.queue.find? fun x => x.isFor e.slot e.clip with
  | some x =>
    let others := s.player.queue.filter fun y => !y.isFor e.slot e.clip
    (s.setSayQueue others).enqueueSay { e with enqueued := x.enqueued, order := x.order }
  | none =>
    if s.player.queue.length < 8 then s.addSay e
    else
      match s.player.queue.getLast? with
      | some last => ((s.setSayQueue s.player.queue.dropLast).reportSay last .dropped).addSay e
      | none => s.addSay e

/-! ## Stopping -/

/-- A cancel of an instance by preemption, RESTART or ABANDON (R89, R98). -/
def State.cancelNarration (s : State) (k : Fin 4) (mark : BitVec 8) : State :=
  let t := s.setSayQueue (s.player.queue.filter fun e => !(e.slot == k && e.mark == mark))
  match s.player.current with
  | some e =>
    if e.slot = k ∧ e.mark = mark then
      match s.player.state with
      | .settling =>
        { t with player.state := .fadingOut, player.fadeOutStart := some s.now, player.windowEnd := none }
      | .playing => { t with player.state := .fadingOut, player.fadeOutStart := some s.now }
      | _ => t
    else t
  | none => t

/-- R99: the player at the entry into HALTED. -/
def State.haltNarration (s : State) : State :=
  let t := if s.player.state = .idle then s else s.handOver .talkEnd
  (t.setSayQueue []).playerStopped

/-! ## The voice table (R82 to R84) -/

/-- Whether a station has a voice-table entry. -/
def State.hears (s : State) (station : Nat) : Bool := s.player.voices.any fun v => v.station == station

/-- An entry made TALKING until a time (R83). -/
def VoiceEntry.talkUntil (time : Tick) (v : VoiceEntry) : VoiceEntry := { v with talking := true, expiry := some time }

/-- An entry made TALKING with its expiry unchanged (R83): that of a QUIET entry stays absent (DEDUCED, assumption 41). -/
def VoiceEntry.talkOn (v : VoiceEntry) : VoiceEntry := { v with talking := true }

/-- An entry made QUIET (R84). -/
def VoiceEntry.quiet (v : VoiceEntry) : VoiceEntry := { v with talking := false, expiry := none }

/-- Changes a station's entry; a station with no entry gets none (R82). -/
def State.setVoice (s : State) (station : Nat) (change : VoiceEntry → VoiceEntry) : State :=
  { s with player.voices := s.player.voices.map fun v => if v.station = station then change v else v }

/-- The ticks still to play: of the clip while PLAYING, of the fade-out while FADING_OUT (R96). -/
def State.ticksToPlay (s : State) : Nat :=
  let clipLeft : Option Nat :=
    match s.player.current, s.player.playStart with
    | some e, some t => some (t + s.durationOf e.clip - s.now)
    | _, _ => none
  match s.player.state, s.player.fadeOutStart, clipLeft with
  | .fadingOut, some t, some left => min (t + 20 - s.now) left
  | .fadingOut, some t, none => t + 20 - s.now
  | _, _, some left => left
  | _, _, none => 0

/-- The remaining time of a TALK_BUSY, in 100 ms units, at least 1 (R96). -/
def State.remainingUnits (s : State) : Nat := max 1 (ceilDiv s.ticksToPlay 10)

end Sys2Proof.Machine
end

