-- ==== Sys2Proof/Machine/DriveRun.lean ====
section
/-! DEFINITION. A drive's output and its runs, as changes of its own record: start, brake, retarget and stop
(R103 to R112, R116, R117). The share arithmetic that goes with them is in Share.lean and Motor.lean. -/

namespace Sys2Proof.Machine

/-- A drive's output (R105): driving in a direction at a duty, braking, or off. -/
inductive DriveOutput where
  | drive (up : Bool) (duty : Nat)
  | brake
  | off
deriving DecidableEq, Repr

/-- Whether a drive's output drives the motor (R105): HOMING or MOVING in RUN, or the running segment. -/
def State.driving (s : State) (d : Fin 4) : Bool :=
  match s.drives[d].state with
  | .homing | .moving => !s.drives[d].braking
  | .track => s.track.running
  | _ => false

/-- The class the segment runs at: class 0 when the record's class has duty 0 (R119). -/
def State.segmentClass (s : State) : Fin 4 :=
  if s.settings.drives[(3 : Fin 4)].duties[s.track.speedClass] = 0 then 0 else s.track.speedClass

/-- The output of a drive at the present time (R103, R105, R116, R117). -/
def State.driveOutput (s : State) (d : Fin 4) : DriveOutput :=
  let r := s.drives[d]
  let duties := s.settings.drives[d].duties
  match r.state with
  | .homing => if r.braking then .brake else .drive r.up duties[(0 : Fin 4)]
  | .moving => if r.braking then .brake else .drive r.up duties[r.classInForce]
  | .track =>
    if s.track.running then .drive r.up duties[s.segmentClass]
    else if r.brakeUntil.isSome then .brake else .off
  | _ => if r.brakeUntil.isSome then .brake else .off

/-! ## Runs -/

/-- The distance between two positions. -/
def distance (a b : Nat) : Nat := (a - b) + (b - a)

/-- Whether a position lies in the arrival band of the drive's target (R108). -/
def Drive.inBand (r : Drive) (c : DriveSettings) : Bool := decide (distance r.position r.target ≤ c.tolerance)

/-- The speed class in force in RUN of a move, taken again at each count (R105, R108, R109). -/
def Drive.runClass (r : Drive) (c : DriveSettings) : Fin 4 :=
  if r.reversals ≠ 0 ∨ distance r.position r.target ≤ c.approach then 0 else r.speedClass

/-- The end of a blanking that starts now (R112): 50 ms later, in whole ms of the clock (DESIGN CHOICE, assumption 50). -/
def blankingFrom (clockMs : Nat) : Nat := clockMs + 50

/-- The output begins to drive: the stall timer and the blanking start (R111, R112). -/
def Drive.beginDriving (r : Drive) (c : DriveSettings) (now : Tick) (clockMs : Nat) : Drive :=
  { r with braking := false, stillTimer := none, stallTimer := some (now + c.stallTime), samples := []
           blankingEnd := some (blankingFrom clockMs), brakeUntil := none }

/-- The output brakes and the still timer starts, 5 ticks ahead (R107, R108). The kept samples are cleared (R112), and no
blanking end is kept (DESIGN CHOICE, assumption 51). -/
def Drive.beginBraking (r : Drive) (now : Tick) : Drive :=
  { r with braking := true, stillTimer := some (now + 5), stallTimer := none, samples := [], blankingEnd := none
           brakeUntil := none }

/-- The output goes off and every timer of the run stops, as R114 gives for a fault; no blanking end is kept at any other
end either (DESIGN CHOICE, assumption 51). -/
def Drive.offRun (r : Drive) : Drive :=
  { r with braking := false, stillTimer := none, stallTimer := none, samples := [], blankingEnd := none
           brakeUntil := none }

/-- The move phase of a move from the present position (R108). In its band a move has no direction of its own, and the
drive keeps the direction of its last run (DESIGN CHOICE, assumption 44). -/
def Drive.takePhase (r : Drive) (c : DriveSettings) (now : Tick) (clockMs : Nat) : Drive :=
  if r.inBand c then r.beginBraking now
  else
    let r' := { r with up := decide (r.position < r.target), classInForce := r.runClass c }
    r'.beginDriving c now clockMs

/-- A pending MOVE starts (R108). -/
def Drive.startMove (r : Drive) (c : DriveSettings) (now : Tick) (clockMs : Nat) : Drive :=
  Drive.takePhase { r with state := .moving, pending := none, reversals := 0 } c now clockMs

/-- A pending HOME starts (R106). -/
def Drive.startHome (r : Drive) (c : DriveSettings) (now : Tick) (clockMs : Nat) : Drive :=
  Drive.beginDriving { r with state := .homing, pending := none, travel := 0, up := false, classInForce := 0 }
    c now clockMs

/-- A move or a homing run comes to its end at rest (R107, R108): IDLE with its output off, a homing run homed at
position 0; the requester is kept (DEDUCED, assumption 25). -/
def Drive.arrived (r : Drive) : Drive :=
  Drive.offRun
    { r with
      state := .idle
      position := if r.state = .homing then 0 else r.position
      homed := r.homed || decide (r.state = .homing) }

/-- A MOVE for a drive that is already MOVING (R110). -/
def Drive.retarget (r : Drive) (c : DriveSettings) (target : Nat) (speedClass : Fin 4) (by_ : Requester)
    (now : Tick) (clockMs : Nat) : Drive :=
  let r' := { r with target := target, speedClass := speedClass, reversals := 0, requester := some by_ }
  if r'.inBand c then r'.beginBraking now
  else if !r.braking && r.up == decide (r'.position < target) then
    { r' with classInForce := r'.runClass c }
  else r'.takePhase c now clockMs

/-! ## The track segment (R117) -/

/-- The order to run: the output drives UP, with blanking from the order (R102, R105, R112, R117). -/
def State.runSegment (s : State) : State :=
  let t := { s with track.running := true }
  t.setDrive 3
    { s.drives[(3 : Fin 4)] with
      up := true, samples := [], blankingEnd := some (blankingFrom s.clockMs), brakeUntil := none }

/-- The order to stop: the output brakes for 5 ticks, then goes off. A segment that stands stopped stays as it is.
No blanking end is kept (DESIGN CHOICE, assumption 51). -/
def State.stopSegment (s : State) : State :=
  if s.track.running then
    let t := { s with track.running := false }
    t.setDrive 3
      { s.drives[(3 : Fin 4)] with samples := [], blankingEnd := none, brakeUntil := some (s.now + 5) }
  else s

end Sys2Proof.Machine
end

