-- ==== Sys2Proof/Machine/Share.lean ====
section
/-! DEFINITION. The Share Calculator: demands, the allowance, the admission list, the lamp allowance and the
announcements (R58 to R76), with the lamp outputs that follow from it (R46 to R49). -/

namespace Sys2Proof.Machine

/-! ## Demands -/

/-- The peak level of a channel (R46). -/
def Lamp.peak (r : Lamp) : Nat := if r.fading then max r.fadeStart r.target else r.programmed

/-- The lamp demand in mW (R46): an unused channel's rating is 0. -/
def State.lampDemand (s : State) : MilliWatt :=
  ((List.finRange 12).map fun c => s.settings.channels[c].rating * s.lamps[c].peak).sum

/-- Whether a drive or the segment holds a claim on the supply (R59). -/
def State.claims (s : State) (d : Fin 4) : Bool :=
  match s.drives[d].state with
  | .pendingPower | .moving | .homing => true
  | .track =>
    match s.track.state with
    | .askingPower | .askingAsked | .sending | .receiving => true
    | _ => false
  | _ => false

/-- Whether a drive or the segment is running (R60). -/
def State.runs (s : State) (d : Fin 4) : Bool :=
  match s.drives[d].state with
  | .moving | .homing => true
  | .track => s.track.running
  | _ => false

/-- A drive's rated watts in mW. -/
def State.driveWatts (s : State) (d : Fin 4) : MilliWatt := milli s.settings.drives[d].watts

/-- The motor demand DM (R59). -/
def State.motorDemand (s : State) : MilliWatt :=
  ((List.finRange 4).map fun d => if s.claims d then s.driveWatts d else 0).sum

/-- The started motor demand DMs (R60). -/
def State.startedDemand (s : State) : MilliWatt :=
  ((List.finRange 4).map fun d => if s.runs d then s.driveWatts d else 0).sum

/-- The peer sum (R61). -/
def State.peerSum (s : State) : MilliWatt := (s.line.peers.map fun p => milli p.demand).sum

/-- The allowance A (R62). -/
def allowance (line : LineState) (own peers capacity base : MilliWatt) : MilliWatt :=
  match line with
  | .off => 0
  | .joining | .silent => min own base
  | .active | .mute =>
    if own ≤ base then own
    else if own + peers ≤ capacity then own
    else max base (capacity * own / (own + peers))

/-! ## Lamp outputs -/

/-- The output level of a channel for its programmed level, the lamp demand and the lamp allowance (R48). -/
def outputLevel (programmed : Nat) (demand given : MilliWatt) : Nat :=
  if demand ≤ given then programmed else programmed * given / demand

/-- Works the output level of every channel out again (R48, R49). -/
def State.refreshOutputs (s : State) : State :=
  { s with lamps := Vector.ofFn fun c : Fin 12 =>
      { s.lamps[c] with
        output :=
          if s.used c then outputLevel s.lamps[c].programmed s.share.lampDemand s.share.lampAllowance else 0 } }

/-- Hands the lamp allowance for the present A and DMs to the Lamp Fader (R60, R63 step 3). -/
def State.handLampAllowance (s : State) : State :=
  State.refreshOutputs
    { s with share.startedDemand := s.startedDemand, share.lampAllowance := s.share.allowance - s.startedDemand }

/-! ## Admission -/

/-- Starts an entry that has passed its test and left the list (R66). -/
def State.startEntry (s : State) (e : AdmissionEntry) : State :=
  match e.kind with
  | .driveRun =>
    let r := s.drives[e.drive]
    match r.pending with
    | some .move => s.setDrive e.drive (r.startMove s.settings.drives[e.drive] s.now s.clockMs)
    | some .home => s.setDrive e.drive (r.startHome s.settings.drives[e.drive] s.now s.clockMs)
    | none => s
  | .segmentSend =>
    let t : State :=
      { s with track.state := .askingAsked, track.retryTimer := some (s.now + 100)
               track.giveUpTimer := some (s.now + 6000) }
    t.handOverAsk
  | .segmentStart => s.runSegment

/-- Removes the entry of a drive from the list; the list holds at most one for each (R64). -/
def State.dropEntry (s : State) (d : Fin 4) : State :=
  { s with share.admissions := s.share.admissions.filter fun e => e.drive != d }

/-- R65: the entries in list order, each started when the running demand with it lies within A. -/
def State.testEntries : List AdmissionEntry → State → State
  | [], s => s
  | e :: es, s =>
    if s.startedDemand + e.watts ≤ s.share.allowance then State.testEntries es ((s.dropEntry e.drive).startEntry e)
    else State.testEntries es s

/-- R63 step 1: the demands are formed and the allowance worked out. -/
def State.formAllowance (s : State) : State :=
  let own := s.lampDemand + s.motorDemand
  { s with
    share.lampDemand := s.lampDemand, share.motorDemand := s.motorDemand, share.startedDemand := s.startedDemand
    share.ownDemand := own, share.peerSum := s.peerSum
    share.allowance :=
      allowance s.line.state own s.peerSum (milli s.settings.capacity) (milli s.settings.baseShare) }

/-- R63 step 2, made only while the station is not HALTED, when no drive or segment may start (R73). -/
def State.testAdmissions (s : State) : State :=
  if s.halted then s else State.testEntries s.share.admissions s

/-- One recomputation (R63): its announcement check is owed to the end of the event. -/
def State.recomputeOnce (s : State) : State :=
  { s.formAllowance.testAdmissions.handLampAllowance with announceCheck := true }

/-- The drives, in list order, whose homing run a recomputation from `s` to `t` has started with the home switch
closed (R106). -/
def State.homedAtOnce (s t : State) : List (Fin 4) :=
  (s.share.admissions.map fun e => e.drive).filter fun d =>
    s.drives[d].state != .homing && t.drives[d].state == .homing && t.drives[d].homeClosed

/-- The end of such a run (R106, R107): at rest at position 0 with no motion, reported DONE. -/
def State.homeAtOnce (s : State) (d : Fin 4) : State :=
  (s.setDrive d s.drives[d].arrived).completeAwaits (.drive d) .done

/-- A recomputation and those its own starts cause. A homing run that ends at once is running while the entries behind
it are tested (R65) and ends when that recomputation is over, with one of its own, since recomputations do not overlap
(R63, R69; DEDUCED, assumption 45). Each is of another drive, so five are enough. -/
def State.recomputeUpTo : Nat → List (Fin 4) → State → State
  | 0, _, s => s
  | n + 1, ending, s =>
    let t := s.recomputeOnce
    match ending ++ s.homedAtOnce t with
    | [] => t
    | d :: ds => State.recomputeUpTo n ds (t.homeAtOnce d)

/-- Recomputes the allowance (R63). -/
def State.recompute (s : State) : State := State.recomputeUpTo 5 [] s

/-- Appends an entry to the admission list and recomputes (R64). -/
def State.enterAdmission (s : State) (kind : RequestKind) (d : Fin 4) : State :=
  State.recompute
    { s with share.admissions := s.share.admissions ++ [⟨kind, d, s.driveWatts d, s.now⟩] }

/-- The start test of a segment that is to run (R72). -/
def State.segmentStartTest (s : State) : State :=
  if s.startedDemand + s.driveWatts 3 ≤ s.share.allowance then s.runSegment.handLampAllowance
  else s.enterAdmission .segmentStart 3

/-! ## Announcements -/

/-- The announced demand in W (R74). -/
def State.announcedDemand (s : State) : Nat := min 65535 (ceilDiv s.share.ownDemand 1000)

/-- Hands a LOAD over with the values as they stand, and sets the last announcement (R74). -/
def State.handOverLoad (s : State) : State :=
  let t : State := { s with share.lastAnnouncement := some ⟨s.announcedDemand, s.halted, s.now⟩ }
  t.handOver (.load s.announcedDemand s.settings.group s.halted)

/-- Whether a LOAD is to be handed over now (R75). -/
def State.announcementDue (s : State) : Bool :=
  (s.line.state == .active || s.line.state == .mute) &&
    match s.share.lastAnnouncement with
    | some a =>
      (decide (a.time + 10 ≤ s.now) && (a.demand != s.announcedDemand || a.halted != s.halted)) ||
        decide (a.time + 200 ≤ s.now)
    | none => false

/-- R63 step 4 and R75: the check at the end of an event that made a recomputation or changed the halted flag. -/
def State.announce (s : State) : State :=
  if s.announceCheck then
    let t := { s with announceCheck := false }
    if t.announcementDue then t.handOverLoad else t
  else s

end Sys2Proof.Machine
end

