-- ==== Sys2Proof/Machine/Lamps.lean ====
section
/-! DEFINITION. The Lamp Fader: fades, idle dimming and halt fades (R43 to R54). -/

namespace Sys2Proof.Machine

/-- Hands the lamp demand over when it has changed, and works the outputs out again otherwise (R47, R49). -/
def State.lampChanged (s : State) : State :=
  if s.lampDemand = s.share.lampDemand then s.refreshOutputs else s.recompute

/-- The record of a channel on which a fade has just started (R43). -/
def Lamp.startFade (r : Lamp) (target steps : Nat) (requester : Option Requester) (now : Tick) : Lamp :=
  { r with
    programmed := if steps = 0 then target else r.programmed
    fadeStart := r.programmed, target := target, steps := steps, stepsDone := 0
    fading := decide (steps ≠ 0), requester := requester, begun := now }

/-- Starts a fade on a channel; an unused channel ignores it (R43). A fade of length 0 has ended at its start, and its
end is reported (R45). -/
def State.startFade (s : State) (c : Fin 12) (target steps : Nat) (requester : Option Requester) : State :=
  if s.used c then
    let t := (s.setLamp c (s.lamps[c].startFade target steps requester s.now)).lampChanged
    if steps = 0 then t.completeAwaits (.fade c) .done else t
  else s

/-- The level after k of n steps from one level to another, rounded toward zero from the start (R44). -/
def fadeLevel (start target k n : Nat) : Nat :=
  ((start : Int) + (((target : Int) - (start : Int)) * (k : Int)).tdiv (n : Int)).toNat

/-- The record of a channel after one fade step (R44). -/
def Lamp.step (r : Lamp) : Lamp :=
  { r with
    stepsDone := r.stepsDone + 1
    programmed := fadeLevel r.fadeStart r.target (r.stepsDone + 1) r.steps
    fading := decide (r.stepsDone + 1 < r.steps) }

/-- Whether a channel's next fade step is due: step k falls k ticks after the start (R44). -/
def State.fadeStepDue (s : State) (c : Fin 12) : Bool :=
  s.lamps[c].fading && decide (s.lamps[c].begun + s.lamps[c].stepsDone + 1 ≤ s.now)

/-- A fade step of a channel; the last one ends the fade, brings DL up to date and reports the end (R44, R45). -/
def State.takeFadeStep (s : State) (c : Fin 12) : State :=
  let r := s.lamps[c].step
  let t := s.setLamp c r
  if r.fading then t.refreshOutputs else t.lampChanged.completeAwaits (.fade c) .done

/-- R51, R52: IDLE starts an idle fade on every used channel with no owner, while RUNNING. The fades start, and hand DL
over, in ascending channel number (DESIGN CHOICE, assumption 40: R51 gives no order). -/
def State.idleDimming (s : State) : State :=
  if s.halted then s
  else
    (List.finRange 12).foldl (fun t c =>
      if t.engine.channelOwners[c].isNone then t.startFade c t.settings.channels[c].idleLevel 300 none else t) s

/-- R53: the entry into HALTED starts a halt fade on every used channel. -/
def State.haltFades (s : State) : State :=
  (List.finRange 12).foldl (fun t c => t.startFade c t.settings.channels[c].haltLevel 100 none) s

end Sys2Proof.Machine
end

