-- ==== Sys2Proof/Machine/Motor.lean ====
section
/-! DEFINITION. The Motor Unit: requests, counts, arrival, faults and the halt (R104 to R116). -/

namespace Sys2Proof.Machine

/-! ## Requests from the Scene Engine -/

/-- A drive enters PENDING_POWER for a MOVE (R16, R64). -/
def State.pendMove (s : State) (d : Fin 4) (target : Nat) (speedClass : Fin 4) (by_ : Requester) : State :=
  (s.setDrive d
    { s.drives[d] with
      state := .pendingPower, pending := some .move, target := target, speedClass := speedClass
      requester := some by_ }).enterAdmission .driveRun d

/-- A drive enters PENDING_POWER for a HOME, its homed flag cleared at once (R106). The output of a MOVING drive goes off
(R103; DEDUCED, assumption 19); a brake left by a halt runs on (DEDUCED, assumption 28). -/
def State.pendHome (s : State) (d : Fin 4) (by_ : Requester) : State :=
  (s.setDrive d
    { s.drives[d].offRun with
      state := .pendingPower, pending := some .home, homed := false, requester := some by_
      brakeUntil := s.drives[d].brakeUntil }).enterAdmission .driveRun d

/-- The state a drive leaves PENDING_POWER in without starting (R115, R116). -/
def Drive.unstarted (r : Drive) : Drive :=
  { r with state := if r.pending = some .home then .unhomed else .idle, pending := none }

/-- A pending request is abandoned at a takeover (R12, R67): it leaves the list and DM, with a recomputation, before
the new request is entered. -/
def State.abandonRequest (s : State) (d : Fin 4) : State :=
  if s.drives[d].state = .pendingPower then
    ((s.setDrive d s.drives[d].unstarted).dropEntry d).recompute
  else s

/-- A MOVE that has passed its tests is handed to the Motor Unit (R16, R110). -/
def State.requestMove (s : State) (d : Fin 4) (target : Nat) (speedClass : Fin 4) (by_ : Requester) : State :=
  match s.drives[d].state with
  | .idle => s.pendMove d target speedClass by_
  | .moving =>
    s.setDrive d (s.drives[d].retarget s.settings.drives[d] target speedClass by_ s.now s.clockMs)
  | .pendingPower =>
    s.setDrive d { s.drives[d] with target := target, speedClass := speedClass, requester := some by_ }
  | _ => s

/-- A HOME that has passed its tests is handed to the Motor Unit (R17, R106). -/
def State.requestHome (s : State) (d : Fin 4) (by_ : Requester) : State :=
  match s.drives[d].state with
  | .unhomed | .idle | .faulted | .moving => s.pendHome d by_
  | .homing => s.setDrive d { s.drives[d] with requester := some by_ }
  | .pendingPower =>
    s.setDrive d { s.drives[d] with pending := some .home, homed := false, requester := some by_ }
  | .track => s

/-! ## Faults and arrivals -/

/-- A drive faults (R114). A fault of a FAULTED drive has no effect. -/
def State.driveFault (s : State) (d : Fin 4) (kind : FaultKind) : State :=
  let r := s.drives[d]
  if r.state = .faulted then s
  else
    let t :=
      (s.setDrive d
        { r.offRun with state := .faulted, homed := false, pending := none, requester := none }).dropEntry d
    let t := if s.claims d then t.recompute else t
    (t.recordFault kind d.val).completeAwaits (.drive d) .failed

/-- A move or a homing run comes to its end at rest (R107, R108): its watts leave DMs and DM, and DONE is reported. -/
def State.driveArrives (s : State) (d : Fin 4) : State :=
  ((s.setDrive d s.drives[d].arrived).recompute).completeAwaits (.drive d) .done

/-! ## Encoder counts -/

/-- Whether a drive that is outside its band stands on the near side of its target, in the direction it drives (R109). -/
def Drive.shortOfTarget (r : Drive) : Bool :=
  if r.up then decide (r.position < r.target) else decide (r.target < r.position)

/-- A count of a running drive against its arrival band (R108, R109), the position already moved. Class 0 after an
undershoot holds until the next count takes the class again (DEDUCED, assumption 23). -/
def State.countInMove (s : State) (d : Fin 4) : State :=
  let r := s.drives[d]
  let c := s.settings.drives[d]
  if r.braking then
    if r.inBand c then s
    else
      if r.shortOfTarget then s.setDrive d (Drive.beginDriving { r with classInForce := 0 } c s.now s.clockMs)
      else if r.reversals < 3 then
        s.setDrive d
          (Drive.beginDriving { r with classInForce := 0, up := !r.up, reversals := r.reversals + 1 } c s.now
            s.clockMs)
      else s.driveFault d .settle
  else if r.inBand c then s.setDrive d (r.beginBraking s.now)
  else s.setDrive d { r with classInForce := r.runClass c }

/-- The timers that a count restarts when they run (R104). -/
def Drive.restartTimers (r : Drive) (c : DriveSettings) (now : Tick) : Drive :=
  { r with
    stallTimer := r.stallTimer.map fun _ => now + c.stallTime
    stillTimer := r.stillTimer.map fun _ => now + 5 }

/-- Whether a count in a sense would take the position below 0 or above 65535 (R104). -/
def Drive.atEdge (r : Drive) (up : Bool) : Bool :=
  if up then decide (r.position = 65535) else decide (r.position = 0)

/-- One count in a sense (R104): the timers, the travel count of a homing run, the position of a homed drive, and what
the drive's state makes of it. A further count of a braking homing run leaves a travel count of 65535 as it is
(DESIGN CHOICE, assumption 43). -/
def State.takeCount (s : State) (d : Fin 4) (up : Bool) : State :=
  let r := s.drives[d].restartTimers s.settings.drives[d] s.now
  if r.state = .homing then
    let r := { r with travel := min 65535 (r.travel + 1) }
    let t := s.setDrive d r
    if r.travel = 65535 ∧ r.braking = false then t.driveFault d .limit else t
  else if r.homed then
    if r.atEdge up then
      (s.setDrive d r).driveFault d .limit
    else
      let t := s.setDrive d { r with position := if up then r.position + 1 else r.position - 1 }
      if r.state = .moving then t.countInMove d else t
  else s.setDrive d r

/-- Whether line A leads line B in a change of one line (the Gray code of a quadrature encoder): with A leading, a
change of A leaves the lines different and a change of B leaves them equal. -/
def aLeads (oldA newA newB : Bool) : Bool := if oldA != newA then newA != newB else newA == newB

/-- The sense of a change of one line (R104): by which line leads and by the encoder direction. -/
def countsUp (reversed leads : Bool) : Bool := (leads == Config.aLeadingCountsUp) != reversed

/-! ## Halt (R116) -/

/-- The record of a drive at the entry into HALTED. -/
def Drive.halted (r : Drive) (now : Tick) : Drive :=
  match r.state with
  | .moving => { r.offRun with state := .idle, brakeUntil := some (now + 5), requester := none }
  | .homing => { r.offRun with state := .unhomed, brakeUntil := some (now + 5), requester := none }
  | .pendingPower => { r.unstarted with requester := none }
  | _ => r

/-- R116: every drive that is not TRACK at the entry into HALTED, their watts leaving DMs and DM. -/
def State.haltDrives (s : State) : State :=
  State.recompute { s with drives := Vector.ofFn fun d : Fin 4 => s.drives[d].halted s.now }

/-- R73: the admission list at the entry into HALTED. The segment request of a SEND leaves with the Track Block's
withdrawal in the same event (R130). -/
def State.haltAdmissions (s : State) : State :=
  { s with share.admissions := s.share.admissions.filter fun e => e.kind == .segmentSend }

end Sys2Proof.Machine
end

