-- ==== Sys2Proof/Machine/Track.lean ====
section
/-! DEFINITION. The Track Block (R119 to R133): sending, receiving, beams, halt and resume. -/

namespace Sys2Proof.Machine

/-! ## Outcomes and the track requester (R18, R22) -/

/-- The block reaches EMPTY, HOLDING or FAULTED with an outcome for the scenes that AWAIT TRACK; the requester record is
cleared after the outcome is reported (R18, R19). -/
def State.trackOutcome (s : State) (out : AwaitOutcome) : State :=
  { s.completeAwaits .track out with engine.trackRequester := none }

/-- A give-up or a failed admission: as above, and a late failure of the requester (R22). -/
def State.trackFailed (s : State) : State :=
  let t :=
    match s.engine.trackRequester with
    | some r => s.lateOutcome .track r
    | none => s
  t.trackOutcome .failed

/-- A release or an answer addressed to the peer of the exchange (R120). -/
def State.toPeer (s : State) (outcome : ReleaseOutcome) : State :=
  s.handOver (.blockRelease (s.track.peer.getD 0) outcome)

/-! ## Sending (R121 to R125) -/

/-- R121: a SEND taken in HOLDING. -/
def State.takeSend (s : State) (speedClass : Fin 4) : State :=
  State.enterAdmission
    { s with
      track.state := .askingPower, track.peer := some s.settings.downstream, track.speedClass := speedClass
      track.arriveSeen := false, track.departSeen := false, track.settle := .stopped
      track.grantTimer := .stopped, track.retryTimer := none, track.giveUpTimer := none
      track.exchange := s.track.exchange + 1 }
    .segmentSend 3

/-- The end of an ask in HOLDING, peer absent and all timers stopped, its watts out of DM (R121 to R123). -/
def State.endAsk (s : State) : State :=
  State.recompute
    (State.dropEntry
      { s with track.state := .holding, track.peer := none, track.grantTimer := .stopped
               track.retryTimer := none, track.giveUpTimer := none } 3)

/-- Whether the block is ASKING in phase ASKED. -/
def State.asked (s : State) : Bool := s.track.state == .askingAsked

/-- R123: an ask in ASKING is withdrawn: a waiting BLOCK_ASK in phase ASKED alone, with BLOCK_RELEASE(CANCEL) in either
phase. -/
def State.withdrawAsk (s : State) : State :=
  let t := if s.asked then s.withdrawBlockAsk else s
  ((t.toPeer .cancel).endAsk).trackOutcome .failed

/-- Whether the block is ASKING. -/
def State.asking (s : State) : Bool := s.track.state == .askingPower || s.track.state == .askingAsked

/-- R122: the give-up of an ask, in the order of the rule's text: the release is handed over before the waiting ask is
withdrawn (DEDUCED, assumption 46). -/
def State.giveUpAsk (s : State) : State :=
  ((((s.toPeer .cancel).withdrawBlockAsk).retryClaim).endAsk).trackFailed

/-- R124: a grant taken in phase ASKED: the block enters SENDING and its segment makes its start test. -/
def State.enterSending (s : State) : State :=
  let t := s.withdrawBlockAsk.retryClaim
  State.segmentStartTest
    { t with
      track.state := .sending, track.retryTimer := none, track.giveUpTimer := none
      track.grantTimer := .expiring (s.now + 2000), track.departSeen := s.beamBroken .depart }

/-- The end of a handover in a state: the segment stopped, the handover's fields cleared, a segment-start entry off the
list, and the watts out of DMs and DM (R125, R127, R128). The fields are cleared at a fault too, before R132 clears
them (DESIGN CHOICE, assumption 47). -/
def State.endHandover (s : State) (state : TrackState) : State :=
  let t := s.stopSegment
  State.recompute
    (State.dropEntry
      { t with
        track.state := state, track.peer := none, track.grantTimer := .stopped, track.arriveSeen := false
        track.departSeen := false, track.settle := .stopped } 3)

/-- R125: the carriage has left. -/
def State.sendComplete (s : State) : State :=
  ((s.toPeer .done).endHandover .empty).trackOutcome .done

/-- R125, R127: the grant timer expires: FAULTED, TRACK_LOST with the station of the lost handover. -/
def State.trackLost (s : State) : State :=
  let t := if s.track.state = .sending then s.toPeer .failed else s
  ((t.recordFault .trackLost (s.track.peer.getD 0)).endHandover .faulted).trackOutcome .failed

/-- R125, R127: the segment's overcurrent, already recorded by the Motor Unit. -/
def State.trackOvercurrent (s : State) : State :=
  let t := if s.track.state = .sending then s.toPeer .failed else s
  (t.endHandover .faulted).trackOutcome .failed

/-! ## Receiving (R126 to R128) -/

/-- The allowance a trial admission of the segment works out (R71). -/
def State.trialAllowance (s : State) : MilliWatt :=
  allowance s.line.state (s.share.ownDemand + s.driveWatts 3) s.share.peerSum (milli s.settings.capacity)
    (milli s.settings.baseShare)

/-- R71: whether the trial admission of the segment passes. -/
def State.trialPasses (s : State) : Bool :=
  decide (s.share.startedDemand + s.driveWatts 3 ≤ s.trialAllowance)

/-- R126: the block enters RECEIVING, its segment started by the trial admission. -/
def State.enterReceiving (s : State) (source : Nat) (speedClass : Fin 4) : State :=
  let t : State :=
    { s with
      track.state := .receiving, track.peer := some source, track.speedClass := speedClass
      track.arriveSeen := false, track.settle := .stopped
      track.grantTimer := .expiring (s.now + 2000) }
  t.runSegment

/-- R126, R71: an ask of the upstream station. The answer is handed over before the step-2 pass of the list. -/
def State.takeAsk (s : State) (source : Nat) (speedClass : Fin 4) : State :=
  match s.track.state with
  | .empty =>
    if s.halted then s.handOver (.blockHeld source .busy)
    else if s.trialPasses then ((s.enterReceiving source speedClass).handOver (.blockGrant source)).recompute
    else s.handOver (.blockHeld source .power)
  | .receiving =>
    if s.track.peer = some source then s.handOver (.blockGrant source) else s.handOver (.blockHeld source .busy)
  | _ => s.handOver (.blockHeld source .busy)

/-- R127: the carriage has come to its place, or has run the length of the bay: HOLDING. -/
def State.receiveComplete (s : State) : State := (s.endHandover .holding).trackOutcome .done

/-- R127: the ARRIVE beam clears behind the carriage; while HALTED the settle run is frozen at its full length
(R130). A settle run of length 0 leaves nothing to freeze, and ends the handover at once while HALTED too (DESIGN CHOICE,
assumption 48). -/
def State.carriageArrived (s : State) : State :=
  if s.settings.settleRun = 0 then s.receiveComplete
  else
    { s with
      track.grantTimer := .stopped
      track.settle :=
        if s.halted then .frozen s.settings.settleRun else .expiring (s.now + s.settings.settleRun) }

/-! ## Beams (R125, R127, R129) -/

/-- A beam of the track is broken. -/
def State.trackBeamBroken (s : State) (side : InputKind) : State :=
  match s.track.state, side with
  | .sending, .depart => { s with track.departSeen := true }
  | .receiving, .arrive => { s with track.arriveSeen := true }
  | .receiving, .depart => s.receiveComplete
  | .empty, _ => { s with track.state := .holding }
  | _, _ => s

/-- A beam of the track is clear. -/
def State.trackBeamClear (s : State) (side : InputKind) : State :=
  match s.track.state, side with
  | .sending, .depart => if s.track.departSeen then s.sendComplete else s
  | .receiving, .arrive => if s.track.arriveSeen then s.carriageArrived else s
  | _, _ => s

/-! ## Halt, resume and clearing (R130 to R132) -/

/-- The timer a halt freezes with the ticks it had left. -/
def HaltTimer.freeze (t : HaltTimer) (now : Tick) : HaltTimer :=
  match t with
  | .expiring e => .frozen (e - now)
  | other => other

/-- A frozen timer set to end its remaining ticks from now. -/
def HaltTimer.thaw (t : HaltTimer) (now : Tick) : HaltTimer :=
  match t with
  | .frozen left => .expiring (now + left)
  | other => other

/-- Whether the timer runs and its expiry has been reached; a frozen timer does not expire (R130). -/
def HaltTimer.due (t : HaltTimer) (now : Tick) : Bool :=
  match t with
  | .expiring e => decide (e ≤ now)
  | _ => false

/-- Whether a handover is under way. -/
def State.inHandover (s : State) : Bool := s.track.state == .sending || s.track.state == .receiving

/-- R130: the entry into HALTED. -/
def State.haltTrack (s : State) : State :=
  if s.asking then s.withdrawAsk
  else if s.inHandover then
    let t := s.stopSegment
    State.recompute
      { t with track.grantTimer := s.track.grantTimer.freeze s.now, track.settle := s.track.settle.freeze s.now }
  else s

/-- R131: the return to RUNNING. -/
def State.resumeTrack (s : State) : State :=
  if s.inHandover then
    let arrived := s.track.state == .receiving && s.track.arriveSeen && !s.beamBroken .arrive
    State.segmentStartTest
      { s with
        track.grantTimer := if arrived then .stopped else .expiring (s.now + 2000)
        track.settle := s.track.settle.thaw s.now }
  else s

/-- R132: a RESUME activation taken while RUNNING clears a FAULTED block by its beams. -/
def State.clearTrack (s : State) : State :=
  if s.track.state = .faulted ∧ s.halted = false then
    { s with
      track.state := if s.beamBroken .arrive || s.beamBroken .depart then .holding else .empty
      track.peer := none, track.arriveSeen := false, track.departSeen := false, track.grantTimer := .stopped
      track.retryTimer := none, track.giveUpTimer := none, track.settle := .stopped }
  else s

end Sys2Proof.Machine
end

