-- ==== Sys2Proof/Machine/Line.lean ====
section
/-! DEFINITION. The Line Interface: its states, attempts and their ends, the peer table and duplicates (R134 to R137,
R141 to R147). -/

namespace Sys2Proof.Machine

/-! ## Line states -/

/-- A change of line state reaches the Share Calculator and the Narration Player (section 8.1), in this order: a frame
that the recomputation hands over goes before the player's TALK_INTENT, or the withdrawal of one (DESIGN CHOICE,
assumption 54). -/
def State.setLineState (s : State) (l : LineState) : State :=
  (State.recompute { s with line.state := l }).playerLineChanged

/-! ## Attempts -/

/-- R134: whether an attempt may be made, the gap of 11 recessive bits being the event itself. -/
def State.mayTransmit (s : State) : Bool :=
  s.line.state == .active && !s.line.stuckHold && !s.transmitting && !s.line.queue.isEmpty

/-- R134: the head of the queue is in transmission. -/
def State.beginAttempt (s : State) : State :=
  match s.line.queue with
  | [] => s
  | e :: rest => s.setTxQueue ({ e with inTransmission := true } :: rest)

/-- The frame in transmission, if any. -/
def State.onLine (s : State) : Option TxEntry := s.line.queue.find? fun e => e.inTransmission

/-- The frame the station is sending (R169). -/
def State.sending (s : State) : Option Frame :=
  s.onLine.map fun e => encodeFrame s.settings.station e.body

/-- The bits the station is sending, in the order sent (R169); none, with the output recessive, when it sends no frame. -/
def State.sendingBits (s : State) : List Bool := (s.sending.map Frame.bits).getD []

/-- The attempt ends without success: the frame keeps its place, and a LOAD held aside replaces the old one (R135,
R136, R138). -/
def State.failAttempt (s : State) : State :=
  let t := s.setTxQueue (s.line.queue.map fun e => { e with inTransmission := false })
  match s.line.heldLoad with
  | some load => { t.setTxQueue (t.line.queue.map fun e => if e.isLoad then load else e) with line.heldLoad := none }
  | none => t

/-- R136, R137: a readback mismatch. The sixteenth in a row mutes the station. -/
def State.abortAttempt (s : State) : State :=
  let t := s.failAttempt
  State.retryClaim
    (if s.line.errors + 1 < 16 then { t with line.errors := s.line.errors + 1 }
    else
      State.setLineState
        (State.recordFault { t with line.errors := 16, line.muteTimer := some (s.now + 100) } .lineErrors 0) .mute)

/-- R135, R138: arbitration is lost. -/
def State.loseAttempt (s : State) : State := s.failAttempt.retryClaim

/-- R91: the outcome "sent" of a claim's TALK_INTENT. -/
def State.intentSentFor (s : State) (claim : Nat) : State :=
  if s.player.state = .settling ∧ s.player.claim = claim then
    { s with player.intentSent := true, player.windowEnd := some (s.now + 6) }
  else s

/-- R136, R138: the attempt succeeds: the frame leaves the queue, the errors in a row are none, the player is told of
its intent, and a LOAD held aside is entered. -/
def State.succeedAttempt (s : State) (e : TxEntry) : State :=
  let t : State :=
    { s with
      line.queue := s.line.queue.filter fun x => !x.inTransmission
      line.errors := 0, line.heldLoad := none }
  let t := if e.isIntent then t.intentSentFor e.claim else t
  let t := match s.line.heldLoad with | some load => t.enterTx load | none => t
  t.retryClaim

/-! ## Peer table (R143, R144) -/

/-- Whether a station has a peer table entry. -/
def State.hasPeer (s : State) (station : Nat) : Bool := s.line.peers.any fun p => p.station == station

def State.setPeers (s : State) (ps : List Peer) : State := { s with line.peers := ps }

/-- Hands a change of the demand sum to the Share Calculator; an unchanged sum makes no recomputation (R61, R63). -/
def State.peersChanged (s : State) : State := if s.peerSum = s.share.peerSum then s else s.recompute

/-- R144: a valid frame refreshes its station's entry. -/
def State.hearPeer (s : State) (station : Nat) : State :=
  s.setPeers (s.line.peers.map fun p => if p.station = station then { p with lastHeard := s.now } else p)

/-- Removes a station's entry (R143, R144). -/
def State.removePeer (s : State) (station : Nat) : State :=
  (s.setPeers (s.line.peers.filter fun p => p.station != station)).peersChanged

/-- The entry heard longest ago, and of those the one of the lowest station number (R143). -/
def oldestPeer : List Peer → Option Peer
  | [] => none
  | p :: ps =>
    match oldestPeer ps with
    | none => some p
    | some q =>
      if p.lastHeard < q.lastHeard ∨ (p.lastHeard = q.lastHeard ∧ p.station < q.station) then some p else some q

/-- A new entry from a LOAD. -/
def State.addPeer (s : State) (station demand : Nat) : State :=
  (s.setPeers (s.line.peers ++ [⟨station, demand, s.now⟩])).peersChanged

/-- R143: a station of the own group with no entry and the table full. An eviction and the new entry each hand their
change of the sum over (DEDUCED, assumption 21). -/
def State.addToFullTable (s : State) (station demand : Nat) : State :=
  match oldestPeer s.line.peers with
  | none => s
  | some p =>
    if p.lastHeard + 200 < s.now then (s.removePeer p.station).addPeer station demand
    else if s.line.peerFull.contains station then s
    else State.recordFault { s with line.peerFull := station :: s.line.peerFull } .peerFull station

/-- R143: a valid LOAD from a station. -/
def State.takeLoad (s : State) (station demand group : Nat) : State :=
  if group = s.settings.group then
    if s.hasPeer station then
      (s.setPeers (s.line.peers.map fun p =>
        if p.station = station then { p with demand := demand, lastHeard := s.now } else p)).peersChanged
    else if s.line.peers.length < 32 then s.addPeer station demand
    else s.addToFullTable station demand
  else if s.hasPeer station then s.removePeer station
  else s

/-! ## Receiving (R141, R147) -/

/-- R147: a frame bearing the own number: DUPLICATE, and SILENT until the next restart. -/
def State.duplicate (s : State) : State :=
  let t := s.recordFault .duplicate s.settings.station
  if s.line.state = .silent then t else State.setLineState { t with line.muteTimer := none } .silent

/-- A received frame of a kind (R141, R142, R144, R147): dropped when not valid; a duplicate when its source is the own
number, of which HALT and RESUME alone are then routed, but its own frame read back while it transmits (DEDUCED,
assumption 31); otherwise it refreshes the peer table and is routed. -/
def State.receive (s : State) (k : FrameKind) (f : Frame) (route : State → State) : State :=
  if s.inShow && s.line.state.receives && f.valid k then
    if f.source = s.settings.station then
      if s.transmitting then s
      else if k = .halt ∨ k = .resume then route s.duplicate
      else s.duplicate
    else route (s.hearPeer f.source)
  else s

end Sys2Proof.Machine
end

