-- ==== Sys2Proof/Machine/Engine.lean ====
section
/-! DEFINITION. The Scene Engine: admission, steps, ownership, cancellation and the works of an event (R2 to R24). -/

namespace Sys2Proof.Machine

def State.scene? (s : State) (n : Fin 64) : Option Scene := s.engine.scenes[n]

/-- The slot's running instance set or removed, its mark kept. -/
def State.setRun (s : State) (k : Fin 4) (run : Option Running) : State :=
  s.setSlot k { s.engine.slots[k] with run := run }

/-! ## Failure policy, cancellation and finishing (R9, R22, R23) -/

/-- Why an instance is cancelled (R23). -/
inductive CancelReason where
  | preempted | restarted | abandoned | halted
deriving DecidableEq, Repr

/-- Clears every owner record that names a slot (R11). -/
def State.clearOwners (s : State) (k : Fin 4) : State :=
  { s with
    engine.channelOwners := Vector.ofFn fun c : Fin 12 =>
      match s.engine.channelOwners[c] with
      | some o => if o.slot = k then none else some o
      | none => none
    engine.driveOwners := Vector.ofFn fun d : Fin 4 =>
      match s.engine.driveOwners[d] with
      | some o => if o.slot = k then none else some o
      | none => none }

/-- The part of a cancel that reaches the track (R23): the requester's ask is withdrawn, but by the Track Block itself
at a halt (R130), and the requester record is cleared. -/
def State.cancelTrack (s : State) (k : Fin 4) (mark : BitVec 8) (why : CancelReason) : State :=
  if s.engine.trackRequester = some ⟨k, mark⟩ then
    let t := if why ≠ .halted ∧ s.asking = true then s.withdrawAsk else s
    { t with engine.trackRequester := none }
  else s

/-- R23: cancels a slot's instance; the slot becomes FREE. Under a halt the player stops itself (R99). The retake check
is made when the slot stays FREE; the caller of a preemption makes it after the preempting start (R6). -/
def State.cancelSlot (s : State) (k : Fin 4) (why : CancelReason) : State :=
  match s.engine.slots[k].run with
  | none => s
  | some i =>
    let mark := s.engine.slots[k].mark
    let t := if why = .halted then s else s.cancelNarration k mark
    let t := (((t.cancelTrack k mark why).clearOwners k).setRun k none)
    if why = .abandoned ∨ why = .halted then t.raise [.retake i.scene] else t

/-- R9: the instance has finished. -/
def State.finishSlot (s : State) (k : Fin 4) (n : Fin 64) : State :=
  ((s.clearOwners k).setRun k none).raise [.retake n]

/-- R8, R19: the slot moves past its step: to the next one with its deadline, or to the end of the scene. -/
def State.moveOn (s : State) (k : Fin 4) : State :=
  match s.engine.slots[k].run with
  | none => s
  | some i =>
    match (s.scene? i.scene).bind fun sc => sc.steps[i.stepIndex + 1]? with
    | some next =>
      s.setRun k (some { i with stepIndex := i.stepIndex + 1, wait := .delaying (s.now + next.delay) })
    | none => s.finishSlot k i.scene

/-- Whether the slot's scene has the failure policy ABANDON (R22). -/
def State.abandons (s : State) (k : Fin 4) : Bool :=
  match s.engine.slots[k].run with
  | none => false
  | some i => ((s.scene? i.scene).map fun sc => sc.abandon).getD false

/-- R22: a failed step, or a failed AWAIT, by the failure policy. -/
def State.failStep (s : State) (k : Fin 4) : State :=
  if s.abandons k then s.cancelSlot k .abandoned else s.moveOn k

/-- Raises the run of a slot whose next step has a delay of 0 (R19). -/
def State.raiseRun (s : State) (k : Fin 4) : State :=
  match s.engine.slots[k].run with
  | some i =>
    match i.wait with
    | .delaying t => if t ≤ s.now then s.raise [.runSlot k] else s
    | .awaiting _ _ | .completed _ => s
  | none => s

/-- R19: an AWAIT completes; a failure is dealt with before the slot moves on. -/
def State.completeAwait (s : State) (k : Fin 4) (failed : Bool) : State :=
  (if failed then s.failStep k else s.moveOn k).raiseRun k

/-! ## Ownership (R11, R12) -/

/-- Whether a slot of a priority may take what an owner record stands for (R11). -/
def mayTake (owner : Option Owner) (k : Fin 4) (priority : Nat) (finished : Bool) : Bool :=
  match owner with
  | none => true
  | some o => o.slot == k || decide (o.priority ≤ priority) || finished

/-- Whether taking is a takeover: the owner is a different slot (R12). -/
def isTakeover (owner : Option Owner) (k : Fin 4) : Bool :=
  match owner with
  | none => false
  | some o => o.slot != k

/-- R12, R19: at a takeover by a slot, every other slot that waits on the drive or channel is PREEMPTED: the previous
owner, and one that does not own it (DEDUCED, assumption 14). -/
def State.preemptAwaits (s : State) (k : Fin 4) (subject : Subject) : State :=
  ((List.finRange 4).filter fun j => j != k).foldl (fun t j => t.endAwait subject .preempted j) s

/-- Whether a drive's work has finished (R11). -/
def Drive.finished (r : Drive) : Bool := r.state != .homing && r.state != .pendingPower && r.state != .moving

/-! ## Steps (R13 to R20) -/

/-- What came of issuing a step: the slot moves on, the step failed (R22), or the slot waits (R19). -/
inductive StepResult where
  | moves | fails | waits
deriving DecidableEq, Repr

/-- R13 for one channel of the set. -/
def State.fadeChannel (s : State) (k : Fin 4) (priority target duration : Nat) (c : Fin 12) : State :=
  let owner := s.engine.channelOwners[c]
  if s.used c && mayTake owner k priority (!s.lamps[c].fading) then
    let t := if isTakeover owner k then s.preemptAwaits k (.fade c) else s
    (t.setChannelOwner c (some ⟨k, priority⟩)).startFade c target duration (some ⟨k, s.engine.slots[k].mark⟩)
  else s

/-- R13: a FADE step. -/
def State.issueFade (s : State) (k : Fin 4) (priority : Nat) (channels : BitVec 12) (target duration : Nat) : State :=
  (List.finRange 12).foldl (fun t c =>
    if channels.getLsbD c.val then t.fadeChannel k priority (min target 1000) (min duration 60000) c else t) s

/-- R14, R86, R87: a SAY step; the handle always describes the latest SAY. -/
def State.issueSay (s : State) (k : Fin 4) (i : Running) (clip : Byte) (priority patience : Nat) : State × StepResult :=
  let t := s.setRun k (some { i with sayCount := i.sayCount + 1, handle := .dropped })
  let e : SayEntry :=
    ⟨k, s.engine.slots[k].mark, clip, priority, s.now, s.now + 100 * max 1 patience, i.sayCount + 1, 0⟩
  if (s.clip? clip).isNone then (t, .fails)
  else if s.sayAccepted e then ((t.acceptSay e).checkStart, .moves)
  else (t.checkStart, .fails)

/-- The speed class of a MOVE or SEND, class 0 when its duty is 0 (R16, R18). -/
def State.clampClass (s : State) (d speedClass : Fin 4) : Fin 4 :=
  if s.settings.drives[d].duties[speedClass] = 0 then 0 else speedClass

/-- A drive is taken by a slot (R11, R12): the loss and the abandoned request of a takeover, then the new owner. -/
def State.takeDrive (s : State) (k : Fin 4) (priority : Nat) (d : Fin 4) : State :=
  let t := if isTakeover s.engine.driveOwners[d] k then (s.preemptAwaits k (.drive d)).abandonRequest d else s
  t.setDriveOwner d (some ⟨k, priority⟩)

/-- R16: a MOVE step. On a FAULTED drive it is refused as FAULTED, with no UNHOMED record (DEDUCED, assumption 18). -/
def State.issueMove (s : State) (k : Fin 4) (priority : Nat) (d : Fin 4) (target : Nat) (speedClass : Fin 4) :
    State × StepResult :=
  let c := s.settings.drives[d]
  if s.isSegment d || s.drives[d].state == .faulted then (s, .fails)
  else if !s.drives[d].homed then (s.recordFault .unhomed d.val, .fails)
  else if mayTake s.engine.driveOwners[d] k priority s.drives[d].finished then
    ((s.takeDrive k priority d).requestMove d (max c.softLow (min c.softHigh target)) (s.clampClass d speedClass)
      ⟨k, s.engine.slots[k].mark⟩, .moves)
  else (s, .moves)

/-- R17: a HOME step. -/
def State.issueHome (s : State) (k : Fin 4) (priority : Nat) (d : Fin 4) : State × StepResult :=
  if s.isSegment d then (s, .fails)
  else if mayTake s.engine.driveOwners[d] k priority s.drives[d].finished then
    ((s.takeDrive k priority d).requestHome d ⟨k, s.engine.slots[k].mark⟩, .moves)
  else (s, .moves)

/-- R18: a SEND step. -/
def State.issueSend (s : State) (k : Fin 4) (speedClass : Fin 4) : State × StepResult :=
  if s.settings.trackMode && s.settings.downstream != 0 && s.track.state == .holding && s.line.state == .active then
    (State.takeSend { s with engine.trackRequester := some ⟨k, s.engine.slots[k].mark⟩ } (s.clampClass 3 speedClass),
      .moves)
  else (s, .fails)

/-- The outcome of a subject that is already settled when its AWAIT is issued (R19). -/
def State.settledOutcome (s : State) (k : Fin 4) (handle : Handle) (subject : Subject) : Option AwaitOutcome :=
  match subject with
  | .narration => if handle = .none then some .done else handle.outcome?
  | .drive d =>
    match s.drives[d].state with
    | .idle | .unhomed => some .done
    | .faulted => some .failed
    | .homing | .pendingPower | .moving =>
      if isTakeover s.engine.driveOwners[d] k then some .preempted else Option.none
    | .track => Option.none
  | .fade c =>
    if !s.lamps[c].fading then some .done
    else if isTakeover s.engine.channelOwners[c] k then some .preempted
    else Option.none
  | .track =>
    match s.track.state with
    | .empty | .holding => some .done
    | .faulted => some .failed
    | _ => Option.none

/-- R19: an AWAIT step: it completes at once, or the slot is AWAITING with its deadline. -/
def State.issueAwait (s : State) (k : Fin 4) (i : Running) (subject : Subject) (limit : Nat) : State × StepResult :=
  match s.settledOutcome k i.handle subject with
  | some .failed => (s, .fails)
  | some _ => (s, .moves)
  | none =>
    (s.setRun k (some { i with wait := .awaiting subject (if limit = 0 then none else some (s.now + limit)) }), .waits)

/-- The scenes bound to an event (R4). -/
def TriggerEvent.bound (ev : TriggerEvent) (sc : Scene) : Bool :=
  match ev, sc.trigger with
  | .input n, .input m => n == m
  | .cue source tag, .cue from_ => (from_ == source || from_ == 0) && sc.cueTag == tag
  | .enter, .enter => true
  | .empty, .empty => true
  | .start, .start => true
  | _, _ => false

/-- The considerations of an event, in ascending scene number (R5). -/
def State.considerations (s : State) (ev : TriggerEvent) : List Work :=
  (List.finRange 64).filterMap fun n =>
    match s.scene? n with
    | some sc => if ev.bound sc then some (.consider ev n) else none
    | none => none

/-- Raises a trigger event (R4, R5). -/
def State.raiseTrigger (s : State) (ev : TriggerEvent) : State := s.raise (s.considerations ev)

/-- The loopback of a CUE step addressed to 0 or to the own station (R20). -/
def State.loopback (s : State) (dest tag : Nat) : List Work :=
  if dest = 0 ∨ dest = s.settings.station then s.considerations (.cue s.settings.station tag) else []

/-- Carries a decoded step out (R13 to R20). -/
def State.carryOut (s : State) (k : Fin 4) (i : Running) (a : Action) : State × StepResult :=
  match a with
  | .fade channels target duration => (s.issueFade k i.priority channels target duration, .moves)
  | .say clip priority patience => s.issueSay k i clip priority patience
  | .move d target speedClass => s.issueMove k i.priority d target speedClass
  | .home d => s.issueHome k i.priority d
  | .send speedClass => s.issueSend k speedClass
  | .await subject limit => s.issueAwait k i subject limit
  | .cue dest tag => (s.handOver (.cue dest tag), .moves)

/-- The loopback works of a step (R20). -/
def State.stepLoopback (s : State) (a : Action) : List Work :=
  match a with
  | .cue dest tag => s.loopback dest tag
  | _ => []

/-- R8, R9: issues the slot's step; the loopbacks it raises are returned. A step that cannot be decoded records
SCENE_BAD and fails. -/
def State.issueStep (s : State) (k : Fin 4) (i : Running) (r : StepRecord) : State × List Work :=
  match decodeStep s.settings.trackMode r with
  | none => ((s.recordFault .sceneBad i.scene.val).failStep k, [])
  | some a =>
    match s.carryOut k i a with
    | (t, .moves) => (t.moveOn k, s.stepLoopback a)
    | (t, .fails) => (t.failStep k, s.stepLoopback a)
    | (t, .waits) => (t, s.stepLoopback a)

/-- The step a slot issues now: DELAYING with its deadline reached (R8). -/
def State.stepDue (s : State) (k : Fin 4) : Option (Running × StepRecord) :=
  match s.engine.slots[k].run with
  | some i =>
    match i.wait with
    | .delaying t => if t ≤ s.now then ((s.scene? i.scene).bind fun sc => sc.steps[i.stepIndex]?).map (i, ·) else none
    | .awaiting _ _ | .completed _ => none
  | none => none

/-- R8: a run of steps of one instance, at most the 32 of a scene; its loopbacks follow when it has ended (R20). -/
def State.runSteps : Nat → Fin 4 → BitVec 8 → List Work → State → State
  | 0, _, _, loops, s => s.raise loops
  | n + 1, k, mark, loops, s =>
    match s.stepDue k with
    | some (i, r) =>
      if s.engine.slots[k].mark = mark then
        let next := s.issueStep k i r
        State.runSteps n k mark (loops ++ next.2) next.1
      else s.raise loops
    | none => s.raise loops

/-- Issues the due step of a slot and the zero-delay run after it (R8). -/
def State.runSlot (s : State) (k : Fin 4) : State := State.runSteps 32 k s.engine.slots[k].mark [] s

/-! ## Admission (R5 to R7) -/

/-- R7, R3: starts a scene in a slot. -/
def State.startScene (s : State) (k : Fin 4) (n : Fin 64) (sc : Scene) (ev : TriggerEvent) : State :=
  let delay := ((sc.steps[0]?).map fun r => r.delay).getD 0
  let t :=
    s.setSlot k
      { run := some ⟨n, sc.priority, s.now, 0, .delaying (s.now + delay), .none, 0⟩
        mark := s.engine.slots[k].mark + 1 }
  let t := t.setCooldown n (if sc.cooldown = 0 then none else some (s.now + 100 * sc.cooldown))
  let t := match ev with | .input i => t.clearLatch i | _ => t
  if delay = 0 then t.raise [.runSlot k] else t

/-- The slot a scene is active in (R2). -/
def State.activeSlot (s : State) (n : Fin 64) : Option (Fin 4) :=
  (List.finRange 4).find? fun k => match s.engine.slots[k].run with | some i => i.scene == n | none => false

/-- The lowest-numbered FREE slot. -/
def State.freeSlot (s : State) : Option (Fin 4) :=
  (List.finRange 4).find? fun k => s.engine.slots[k].run.isNone

/-- Whether an instance gives way before another (R5 test 5): lower priority, then earlier start. -/
def Running.yieldsBefore (a b : Running) : Bool :=
  decide (a.priority < b.priority) || (a.priority == b.priority && decide (a.startTime < b.startTime))

/-- The active slot that gives way first, the lowest-numbered of equals (R5 test 5). -/
def State.victim (s : State) : Option (Fin 4 × Running) :=
  (List.finRange 4).foldl (fun best k =>
    match s.engine.slots[k].run, best with
    | some i, some (_, j) => if i.yieldsBefore j then some (k, i) else best
    | some i, none => some (k, i)
    | none, _ => best) none

/-- R5 test 5: a FREE slot, or the slot of a preempted scene, whose retake check follows the start (R6). -/
def State.placeScene (s : State) (n : Fin 64) (sc : Scene) (ev : TriggerEvent) : State :=
  match s.freeSlot with
  | some k => s.startScene k n sc ev
  | none =>
    match s.victim with
    | some (k, i) =>
      if i.priority < sc.priority then
        ((s.cancelSlot k .preempted).startScene k n sc ev).raise [.retake i.scene]
      else s
    | none => s

/-- R5: a trigger considered for one scene, by the five tests in order. Test 1 clears a latch per bound scene that it
refuses, so that a press of an input with no bound scene leaves its latch set while HALTED (DESIGN CHOICE,
assumption 52). -/
def State.consider (s : State) (ev : TriggerEvent) (n : Fin 64) : State :=
  match s.scene? n with
  | none => s
  | some sc =>
    if s.halted then (match ev with | .input i => s.clearLatch i | _ => s)
    else if sc.needsPresence && s.inputs.occupancy == 0 then s
    else if s.engine.cooldowns[n].isSome then s
    else
      match s.activeSlot n with
      | some k => if sc.policy = .restart then (s.cancelSlot k .restarted).startScene k n sc ev else s
      | none => s.placeScene n sc ev

/-- R6: the retake check of a HOLD scene bound to an input whose latch is present. -/
def State.retake (s : State) (n : Fin 64) : State :=
  match s.scene? n with
  | none => s
  | some sc =>
    match sc.trigger with
    | .input i =>
      if sc.policy = .hold ∧ (s.inputs.inputs[i].latch).isSome then s.consider (.input i) n else s
    | _ => s

/-! ## The works of an event -/

/-- R19: a slot whose AWAIT has been completed goes on, unless its instance has been cancelled meanwhile. -/
def State.takeAwaitDone (s : State) (k : Fin 4) (mark : BitVec 8) : State :=
  match s.instanceOf k mark with
  | some i =>
    match i.wait with
    | .completed out => s.completeAwait k (out == .failed)
    | .awaiting _ _ | .delaying _ => s
  | none => s

/-- R22: a late failure of an instance that is still running: ABANDON cancels it, CONTINUE passes it over
(DEDUCED, assumption 30). -/
def State.takeLateFailure (s : State) (k : Fin 4) (mark : BitVec 8) : State :=
  if (s.instanceOf k mark).isSome && s.abandons k then s.cancelSlot k .abandoned else s

/-- One work of an event. -/
def State.take (s : State) (w : Work) : State :=
  match w with
  | .consider ev n => s.consider ev n
  | .retake n => s.retake n
  | .runSlot k => s.runSlot k
  | .latchPassEnd i => s.clearLatch i
  | .awaitDone k mark => s.takeAwaitDone k mark
  | .lateFailure k mark => s.takeLateFailure k mark
  | .playerIdle => s.playerStopped.checkStart

/-- Takes the works of an event until none are left, each with the works it raises before the ones behind it; none
when they do not end within the count (DESIGN CHOICE, assumption 16). -/
def State.settle : Nat → State → Option State
  | 0, s => if s.works.isEmpty then some s else none
  | n + 1, s =>
    match s.works with
    | [] => some s
    | w :: rest =>
      let t := State.take { s with works := [] } w
      State.settle n { t with works := t.works ++ rest }

/-- How many works one event may take before it counts as endless (DESIGN CHOICE, assumption 15). -/
def eventFuel : Nat := 1099511627776

/-- One event: its body, the works it raises, and the announcement check it owes (R63, R75). -/
def event (body : State → State) (s : State) : Host.Outcome State Fault Refusal :=
  match State.settle eventFuel (body s) with
  | some t => .next t.announce
  | none => .fault .endlessEvent

end Sys2Proof.Machine
end

