-- ==== Sys2Proof/Machine/DriveEvents.lean ====
section
/-! DEFINITION. ENCODER_COUNT, STILL_TIMER_EXPIRY, STALL_TIMER_EXPIRY, CURRENT_SAMPLE, SWITCH_CLOSE, SWITCH_OPEN and
HALT_BRAKE_END (R104 to R117). -/

namespace Sys2Proof.Machine

/-- Whether a drive's encoder and switches are watched (R104, R117). -/
def State.watched (s : State) (d : Fin 4) : Bool := s.inShow && s.drives[d].state != .track

/-- The encoder lines of a drive read new levels (R104): a change of one line is a count, of both or of none is not. -/
def State.readEncoder (s : State) (d : Fin 4) (lineA lineB : Bool) : State :=
  let r := s.drives[d]
  let t := s.setDrive d { r with encA := lineA, encB := lineB }
  if (r.encA != lineA) != (r.encB != lineB) then
    t.takeCount d (countsUp s.settings.drives[d].reversed (aLeads r.encA lineA lineB))
  else t

/-- ENCODER_COUNT (R104). -/
def execEncoderCount (drive : Fin 4) (lineA lineB : Bool) (s : State) : Host.Outcome State Fault Refusal :=
  if s.watched drive then event (fun t => t.readEncoder drive lineA lineB) s else .next s

/-- Whether a braking drive has come to rest: a homing run, or a move inside its band (R107, R108). -/
def State.atRest (s : State) (d : Fin 4) : Bool :=
  let r := s.drives[d]
  r.braking && reached r.stillTimer s.now &&
    (r.state == .homing || (r.state == .moving && r.inBand s.settings.drives[d]))

/-- STILL_TIMER_EXPIRY (R107, R108). -/
def execStillTimerExpiry (drive : Fin 4) (s : State) : Host.Outcome State Fault Refusal :=
  if s.inShow && s.atRest drive then event (fun t => t.driveArrives drive) s else .next s

/-- Whether a drive's stall timer has expired (R111). -/
def State.stallDue (s : State) (d : Fin 4) : Bool := s.driving d && reached s.drives[d].stallTimer s.now

/-- STALL_TIMER_EXPIRY (R111). -/
def execStallTimerExpiry (drive : Fin 4) (s : State) : Host.Outcome State Fault Refusal :=
  if s.inShow && s.stallDue drive then event (fun t => t.driveFault drive .stall) s else .next s

/-- The last three samples with one more kept (R112). -/
def keepSample (samples : List Nat) (code : Nat) : List Nat := (samples ++ [code]).drop (samples.length - 2)

/-- Whether the blanking of a drive has ended (R112). -/
def State.blankingOver (s : State) (d : Fin 4) : Bool :=
  match s.drives[d].blankingEnd with
  | some t => decide (t ≤ s.clockMs)
  | none => true

/-- The segment's current faults (R117): its output goes off, OVERCURRENT is recorded, and the Track Block acts. -/
def State.segmentOvercurrent (s : State) : State :=
  let t : State := { s with track.running := false }
  ((t.setDrive 3 s.drives[(3 : Fin 4)].offRun).recordFault .overcurrent 3).trackOvercurrent

/-- A kept sample (R112, R117): three above the limit in a row are an overcurrent. -/
def State.takeSample (s : State) (d : Fin 4) (code : Nat) : State :=
  let samples := keepSample s.drives[d].samples code
  let t := s.setDrive d { s.drives[d] with samples := samples }
  if samples.length = 3 ∧ samples.all (fun x => decide (s.settings.drives[d].currentLimit < x)) = true then
    if s.drives[d].state = .track then t.segmentOvercurrent else t.driveFault d .overcurrent
  else t

/-- CURRENT_SAMPLE (R112): a sample of a drive whose output drives the motor, kept when the blanking is over. -/
def execCurrentSample (drive : Fin 4) (code : BitVec 10) (s : State) : Host.Outcome State Fault Refusal :=
  if s.inShow && s.driving drive && s.blankingOver drive then event (fun t => t.takeSample drive code.toNat) s
  else .next s

/-- A drive's record with a switch closed or open. -/
def Drive.withSwitch (r : Drive) (which : Switch) (closed : Bool) : Drive :=
  match which with
  | .homeSwitch => { r with homeClosed := closed }
  | .endSwitch => { r with endClosed := closed }

/-- Whether a drive's switch is closed. -/
def Drive.isClosed (r : Drive) (which : Switch) : Bool :=
  match which with
  | .homeSwitch => r.homeClosed
  | .endSwitch => r.endClosed

/-- A switch of a drive closes (R113). -/
def State.closeSwitch (s : State) (d : Fin 4) (which : Switch) : State :=
  let r := s.drives[d].withSwitch which true
  let t := s.setDrive d r
  match r.state, which with
  | .homing, .homeSwitch => if r.braking then t else t.setDrive d (r.beginBraking s.now)
  | .homing, .endSwitch => t.driveFault d .limit
  | .moving, _ => t.driveFault d .limit
  | _, _ => t

/-- SWITCH_CLOSE (R113): a switch that is closed already gives no closing. The row stands for the second of two samples
that read closed (DESIGN CHOICE, assumption 22). -/
def execSwitchClose (drive : Fin 4) (which : Switch) (s : State) : Host.Outcome State Fault Refusal :=
  if s.watched drive && !s.drives[drive].isClosed which then event (fun t => t.closeSwitch drive which) s
  else .next s

/-- SWITCH_OPEN (R113). -/
def execSwitchOpen (drive : Fin 4) (which : Switch) (s : State) : Host.Outcome State Fault Refusal :=
  if s.watched drive then .next (s.setDrive drive (s.drives[drive].withSwitch which false)) else .next s

/-- Whether the brake of a stopped drive or segment has ended (R116, R117). -/
def State.brakeDue (s : State) (d : Fin 4) : Bool := reached s.drives[d].brakeUntil s.now

/-- HALT_BRAKE_END (R116, R117): the output goes off. -/
def execHaltBrakeEnd (drive : Fin 4) (s : State) : Host.Outcome State Fault Refusal :=
  if s.inShow && s.brakeDue drive then .next (s.setDrive drive { s.drives[drive] with brakeUntil := none })
  else .next s

end Sys2Proof.Machine
end

