-- ==== Sys2Proof/Machine/Halt.lean ====
section
/-! DEFINITION. The gallery halt: entry into HALTED and the return, delivered to every block (R149 to R152). -/

namespace Sys2Proof.Machine

/-- The coded detail of a HALTED record (R170). -/
def haltReasonCode : HaltReason → Nat
  | .stopInput => 0
  | .line => 1

/-- R24: every slot that is not FREE is cancelled, and every owner record cleared. -/
def State.haltScenes (s : State) : State :=
  let t := (List.finRange 4).foldl (fun t k => t.cancelSlot k .halted) s
  { t with
    engine.channelOwners := Vector.replicate 12 none, engine.driveOwners := Vector.replicate 4 none }

/-- The entry into HALTED, delivered to the blocks in the order of R149's table (DESIGN CHOICE, assumption 13). -/
def State.enterHalt (s : State) (reason : HaltReason) : State :=
  State.haltTrack (State.haltDrives (State.haltNarration (State.haltAdmissions (State.haltFades
    (State.haltScenes { s with halt := some reason })))))

/-- The entry's HALTED record (R150, R154). -/
def State.recordHalted (s : State) (reason : HaltReason) : State := s.recordFault .halted (haltReasonCode reason)

/-- Hands over a HALT frame; every one this station sends carries STOP_INPUT (R150). -/
def State.sendHalt (s : State) : State := s.handOver (.halt .stopInput)

/-- The return to RUNNING, delivered to the Track Block and the announcement (R131, R149, R75). -/
def State.leaveHalt (s : State) : State :=
  { State.resumeTrack { s with halt := none } with announceCheck := true }

/-- R150: a STOP activation. -/
def State.stopActivation (s : State) : State :=
  if s.halted then s.sendHalt else ((s.enterHalt .stopInput).sendHalt).recordHalted .stopInput

/-- R150: a HALT frame. -/
def State.haltFrame (s : State) : State :=
  if s.halted then s else (s.enterHalt .line).recordHalted .line

/-- R151: a RESUME activation at the Halt Logic. -/
def State.resumeAtHalt (s : State) : State :=
  if s.halted then (if s.stopLevel then s.sendHalt else s.leaveHalt.handOver .resume) else s

/-- R151, R152: a RESUME frame; during joining it clears the joining-halt flag. -/
def State.resumeFrame (s : State) : State :=
  let t : State := if s.line.joiningTimer.isSome then { s with line.joiningHalt := false } else s
  if t.halted then (if t.stopLevel then t.sendHalt else t.leaveHalt) else t

/-- R32, R132: a RESUME activation at the Halt Logic and the Track Block. Which takes it first matters only while
HALTED with the track FAULTED, and is then a free value. -/
def State.resumeActivation (s : State) : State :=
  if s.halted ∧ s.track.state = .faulted then
    let t := { s with draws := s.draws + 1 }
    if Config.resumeReachesHaltFirst s.draws then t.resumeAtHalt.clearTrack else t.clearTrack.resumeAtHalt
  else s.resumeAtHalt.clearTrack

/-- R152: the halt check at the end of joining. -/
def State.joiningHaltCheck (s : State) (flag : Bool) : State :=
  if s.halted then s
  else if s.stopLevel then ((s.enterHalt .stopInput).sendHalt).recordHalted .stopInput
  else if flag then (s.enterHalt .line).recordHalted .line
  else s

end Sys2Proof.Machine
end

