-- ==== Sys2Proof/Machine/Inputs.lean ====
section
/-! DEFINITION. The Input Unit: comparison, debounce, activations, latches and the occupancy (R26 to R38). -/

namespace Sys2Proof.Machine

/-- The level of a sample in per mille of the input range (R26). -/
def levelOf (code : BitVec 10) : Nat := code.toNat * 1000 / 1023

/-- The release level of an input (R27). -/
def InputSettings.release (c : InputSettings) : Nat :=
  if c.threshold + c.hysteresis < 1000 then c.threshold + c.hysteresis else 999

/-- The comparator state after a level, from the state before it (R27). -/
def InputSettings.compare (c : InputSettings) (before : Bool) (level : Nat) : Bool :=
  if level < c.threshold then true else if c.release < level then false else before

/-- How many disagreeing samples in a row change the debounced state (R28). -/
def InputKind.debounceLength : InputKind → Nat
  | .button => 2
  | _ => 1

/-- The record after one sample (R27, R28). -/
def Input.sample (r : Input) (c : InputSettings) (level : Nat) : Input :=
  let comparator := c.compare r.comparator level
  if comparator = r.debounced then { r with comparator := comparator, debounceCount := 0 }
  else if r.debounceCount + 1 < c.kind.debounceLength then
    { r with comparator := comparator, debounceCount := r.debounceCount + 1 }
  else { r with comparator := comparator, debounced := comparator, debounceCount := 0 }

/-! ## Occupancy (R34 to R37) -/

def State.quietTicks (s : State) : Nat := 100 * s.settings.quietSeconds
def State.idleTicks (s : State) : Nat := 100 * s.settings.idleSeconds

/-- Bay activity at the present time: the quiet timer moves on while it runs (R36). -/
def State.bayActivity (s : State) : State :=
  { s with inputs.quietTimer := s.inputs.quietTimer.map fun _ => s.now + s.quietTicks }

/-- The count falls to 0: EMPTY, the idle timer started, and EMPTY raised (R35 to R37). -/
def State.bayEmpties (s : State) : State :=
  State.raiseTrigger
    { s with inputs.occupancy := 0, inputs.bay := .empty, inputs.quietTimer := none
             inputs.idleTimer := some (s.now + s.idleTicks) } .empty

/-- An ENTRY activation (R35). -/
def State.entry (s : State) : State :=
  if s.inputs.occupancy = 0 then
    State.raiseTrigger
      { s with inputs.occupancy := 1, inputs.bay := .occupied, inputs.idleTimer := none
               inputs.quietTimer := some (s.now + s.quietTicks) } .enter
  else { s.bayActivity with inputs.occupancy := min 255 (s.inputs.occupancy + 1) }

/-- An EXIT activation (R35). -/
def State.exitBay (s : State) : State :=
  if s.inputs.occupancy = 0 then s
  else if s.inputs.occupancy = 1 then s.bayEmpties
  else { s.bayActivity with inputs.occupancy := s.inputs.occupancy - 1 }

/-! ## Activations and releases (R30 to R33) -/

/-- A BUTTON or BEAM activation: the latch is set or renewed, then the INPUT trigger is raised; with a hold time of 0
the latch ends with the pass (R31). While HALTED the refusal of each bound scene clears the latch (R5); one of an input
with no bound scene stays until its hold time ends (DESIGN CHOICE, assumption 52). -/
def State.press (s : State) (i : Fin 8) : State :=
  let t := s.bayActivity
  let t := t.setInput i { t.inputs.inputs[i] with latch := some t.now }
  let t := t.raiseTrigger (.input i)
  if t.settings.inputs[i].hold = 0 then t.raise [.latchPassEnd i] else t

/-- An activation acts by its input's kind (R30). -/
def State.activation (s : State) (i : Fin 8) : State :=
  let s := s.setInput i { s.inputs.inputs[i] with lastActivation := some s.now }
  match s.settings.inputs[i].kind with
  | .unused => s
  | .button | .beam => s.press i
  | .entry => s.entry
  | .exit => s.exitBay
  | .stop => s.stopActivation
  | .resume => s.resumeActivation
  | .arrive => if s.settings.trackMode then s.trackBeamBroken .arrive else s
  | .depart => if s.settings.trackMode then s.trackBeamBroken .depart else s

/-- A release acts by its input's kind (R30). The STOP level follows the debounced states (R32). -/
def State.release (s : State) (i : Fin 8) : State :=
  match s.settings.inputs[i].kind with
  | .arrive => if s.settings.trackMode then s.trackBeamClear .arrive else s
  | .depart => if s.settings.trackMode then s.trackBeamClear .depart else s
  | _ => s

/-- One sample of a used input (R26 to R28, R30). -/
def State.sampleInput (s : State) (i : Fin 8) (code : BitVec 10) : State :=
  let before := s.inputs.inputs[i]
  let after := before.sample s.settings.inputs[i] (levelOf code)
  let t := s.setInput i after
  if after.debounced = before.debounced then t
  else if after.debounced then t.activation i
  else t.release i

/-- Whether an input's latch has reached its hold time (R31). -/
def State.latchDue (s : State) (i : Fin 8) : Bool :=
  match s.inputs.inputs[i].latch with
  | some t => decide (t + s.settings.inputs[i].hold ≤ s.now)
  | none => false

end Sys2Proof.Machine
end

