-- ==== Sys2Proof/Machine/InputEvents.lean ====
section
/-! DEFINITION. INPUT_SAMPLE, LATCH_EXPIRY, QUIET_TIMER_EXPIRY and IDLE_TIMER_EXPIRY (R26 to R39). An event that is not
due, or that reaches a station that does not run its show, has no effect (DESIGN CHOICE, assumption 11). -/

namespace Sys2Proof.Machine

/-- INPUT_SAMPLE (R26 to R28, R30): one sample of a used input. -/
def execInputSample (input : Fin 8) (code : BitVec 10) (s : State) : Host.Outcome State Fault Refusal :=
  if s.inShow && s.settings.inputs[input].kind != .unused then event (fun t => t.sampleInput input code) s
  else .next s

/-- LATCH_EXPIRY (R31): a latch that has reached its hold time is removed. -/
def execLatchExpiry (input : Fin 8) (s : State) : Host.Outcome State Fault Refusal :=
  if s.inShow && s.latchDue input then .next (s.clearLatch input) else .next s

/-- Whether the quiet timer has expired. -/
def State.quietDue (s : State) : Bool := reached s.inputs.quietTimer s.now

/-- QUIET_TIMER_EXPIRY (R36): the quiet-time reset. -/
def execQuietTimerExpiry (s : State) : Host.Outcome State Fault Refusal :=
  if s.inShow && s.quietDue then event State.bayEmpties s else .next s

/-- Whether the idle timer has expired. -/
def State.idleDue (s : State) : Bool := reached s.inputs.idleTimer s.now

/-- The bay becomes IDLE, and IDLE is raised to the Lamp Fader (R37, R51). -/
def State.bayIdles (s : State) : State :=
  State.idleDimming { s with inputs.bay := .idle, inputs.idleTimer := none }

/-- IDLE_TIMER_EXPIRY (R37). -/
def execIdleTimerExpiry (s : State) : Host.Outcome State Fault Refusal :=
  if s.inShow && s.idleDue then event State.bayIdles s else .next s

end Sys2Proof.Machine
end

