-- ==== Sys2Proof/Machine/LampEvents.lean ====
section
/-! DEFINITION. FADE_STEP (R44, R45). -/

namespace Sys2Proof.Machine

/-- FADE_STEP (R44): one step of a FADING channel. -/
def execFadeStep (channel : Fin 12) (s : State) : Host.Outcome State Fault Refusal :=
  if s.inShow && s.fadeStepDue channel then event (fun t => t.takeFadeStep channel) s else .next s

end Sys2Proof.Machine
end

