-- ==== Sys2Proof/Machine/LineEvents.lean ====
section
/-! DEFINITION. PEER_AGE_OUT, TRANSMISSION_ATTEMPT, ARBITRATION_LOST, READBACK_ABORT, TRANSMISSION_SUCCESS,
MUTE_TIMER_EXPIRY, JOINING_TIMER_EXPIRY, LINE_STUCK and STUCK_HOLD_CLEAR (R134 to R137, R144 to R146). -/

namespace Sys2Proof.Machine

/-- Whether a station's peer entry has reached its last-heard time plus 600 ticks (R144). -/
def State.peerDue (s : State) (station : Nat) : Bool :=
  s.line.peers.any fun p => p.station == station && decide (p.lastHeard + 600 ≤ s.now)

/-- PEER_AGE_OUT (R144). -/
def execPeerAgeOut (station : Nat) (s : State) : Host.Outcome State Fault Refusal :=
  if s.inShow && s.peerDue station then event (fun t => t.removePeer station) s else .next s

/-- TRANSMISSION_ATTEMPT (R134): the line has been recessive for 11 bit times; the head of the queue goes out. -/
def execTransmissionAttempt (s : State) : Host.Outcome State Fault Refusal :=
  if s.inShow && s.mayTransmit then .next s.beginAttempt else .next s

/-- ARBITRATION_LOST (R135): the frame keeps its place, and the error count does not change. -/
def execArbitrationLost (s : State) : Host.Outcome State Fault Refusal :=
  if s.inShow && s.transmitting then event State.loseAttempt s else .next s

/-- READBACK_ABORT (R136, R137). -/
def execReadbackAbort (s : State) : Host.Outcome State Fault Refusal :=
  if s.inShow && s.transmitting then event State.abortAttempt s else .next s

/-- TRANSMISSION_SUCCESS (R136). -/
def execTransmissionSuccess (s : State) : Host.Outcome State Fault Refusal :=
  if s.inShow then
    match s.onLine with
    | some e => event (fun t => t.succeedAttempt e) s
    | none => .next s
  else .next s

/-- Whether the MUTE timer has expired (R137). -/
def State.muteDue (s : State) : Bool := reached s.line.muteTimer s.now

/-- R137: the end of MUTE. -/
def State.endMute (s : State) : State :=
  State.setLineState { s with line.errors := 0, line.muteTimer := none } .active

/-- MUTE_TIMER_EXPIRY (R137). -/
def execMuteTimerExpiry (s : State) : Host.Outcome State Fault Refusal :=
  if s.inShow && s.line.state == .mute && s.muteDue then event State.endMute s else .next s

/-- Whether the joining timer has expired (R145). -/
def State.joiningDue (s : State) : Bool := reached s.line.joiningTimer s.now

/-- R145 step 2: the line becomes ACTIVE, and the first LOAD is handed over at once (R76). -/
def State.becomeActive (s : State) : State :=
  if s.line.state = .joining then
    ((State.recompute { s with line.state := .active }).handOverLoad).playerLineChanged
  else s

/-- R145: the end of joining, in its order. -/
def State.endJoining (s : State) : State :=
  let t := State.joiningHaltCheck { s with line.joiningTimer := none } s.line.joiningHalt
  t.becomeActive.raiseTrigger .start

/-- JOINING_TIMER_EXPIRY (R145, R152). -/
def execJoiningTimerExpiry (s : State) : Host.Outcome State Fault Refusal :=
  if s.inShow && s.joiningDue then event State.endJoining s else .next s

/-- LINE_STUCK (R146): 25 ms dominant. Within an episode a further run changes nothing. -/
def execLineStuck (s : State) : Host.Outcome State Fault Refusal :=
  if s.inShow && !s.line.stuckHold then .next (State.recordFault { s with line.stuckHold := true } .lineStuck 0)
  else .next s

/-- STUCK_HOLD_CLEAR (R146): 100 ms recessive. -/
def execStuckHoldClear (s : State) : Host.Outcome State Fault Refusal :=
  if s.inShow then .next { s with line.stuckHold := false } else .next s

end Sys2Proof.Machine
end

