-- ==== Sys2Proof/Machine/NarrationEvents.lean ====
section
/-! DEFINITION. VOICE_ENTRY_EXPIRY, PATIENCE_EXPIRY, WINDOW_END, CLIP_END and FADE_OUT_END (R84, R88, R94, R95, R98). -/

namespace Sys2Proof.Machine

/-- Whether a station's voice-table entry has reached its expiry (R84). -/
def State.voiceDue (s : State) (station : Nat) : Bool :=
  s.player.voices.any fun v => v.station == station && reached v.expiry s.now

/-- VOICE_ENTRY_EXPIRY (R84): the entry becomes QUIET, and the start condition is checked (R90). -/
def execVoiceEntryExpiry (station : Nat) (s : State) : Host.Outcome State Fault Refusal :=
  if s.inShow && s.voiceDue station then event (fun t => (t.setVoice station .quiet).checkStart) s else .next s

/-- The queued entry of a slot and clip whose patience deadline is reached (R88). -/
def State.impatient (s : State) (slot : Fin 4) (clip : Byte) : Option SayEntry :=
  s.player.queue.find? fun e => e.isFor slot clip && decide (e.patience ≤ s.now)

/-- PATIENCE_EXPIRY (R88): the entry leaves the queue and reports EXPIRED. -/
def execPatienceExpiry (slot : Fin 4) (clip : Byte) (s : State) : Host.Outcome State Fault Refusal :=
  if s.inShow then
    match s.impatient slot clip with
    | some e =>
      event (fun t => (t.setSayQueue (t.player.queue.filter fun x => !x.isFor slot clip)).reportSay e .expired) s
    | none => .next s
  else .next s

/-- Whether the settle window has ended (R94). -/
def State.windowDue (s : State) : Bool := s.player.state == .settling && reached s.player.windowEnd s.now

/-- R94 with every voice-table entry QUIET: the player plays, its first sample sent. The window end is absent from then on
(DESIGN CHOICE, assumption 53). -/
def State.startPlaying (s : State) : State :=
  let t : State :=
    State.sendSample
      { s with
        player.state := .playing, player.windowEnd := none, player.playStart := some s.now
        player.samplesSent := 0 }
  match s.player.current with
  | some e => t.reportSay e .playing
  | none => t

/-- R94: the end of the settle window. -/
def State.endWindow (s : State) : State := if s.allQuiet then s.startPlaying else s.backOff

/-- WINDOW_END (R94). -/
def execWindowEnd (s : State) : Host.Outcome State Fault Refusal :=
  if s.inShow && s.windowDue then event State.endWindow s else .next s

/-- Whether the duration of the clip being played has passed from the start of play (R79, R95). -/
def State.clipOver (s : State) : Bool :=
  match s.player.current, s.player.playStart with
  | some e, some t => decide (t + s.durationOf e.clip ≤ s.now)
  | _, _ => false

/-- R95: output 0, TALK_END, DONE and nothing current; then, the report taken, the player is IDLE and checks its start
condition. -/
def State.endClip (s : State) : State :=
  let t : State := State.handOver { s with player.audioOutput := 0 } .talkEnd
  let t : State := { t with player.current := none }
  let t :=
    match s.player.current with
    | some e => t.reportSay e .done
    | none => t
  t.raise [.playerIdle]

/-- CLIP_END (R95). -/
def execClipEnd (s : State) : Host.Outcome State Fault Refusal :=
  if s.inShow && s.player.state == .playing && s.clipOver then event State.endClip s else .next s

/-- Whether a fade-out has ended: 20 ticks after its start, or at the clip's end (R98). -/
def State.fadeOutOver (s : State) : Bool :=
  s.player.state == .fadingOut && (reached (s.player.fadeOutStart.map (· + 20)) s.now || s.clipOver)

/-- R98: the end of a fade-out. -/
def State.endFadeOut (s : State) : State :=
  ((State.handOver { s with player.audioOutput := 0 } .talkEnd).playerStopped).checkStart

/-- FADE_OUT_END (R98). -/
def execFadeOutEnd (s : State) : Host.Outcome State Fault Refusal :=
  if s.inShow && s.fadeOutOver then event State.endFadeOut s else .next s

end Sys2Proof.Machine
end

