-- ==== Sys2Proof/Machine/Restart.lean ====
section
/-! DEFINITION. Restart: the causes, the cut of an operation in progress, the loss of volatile state, and the start into
maintenance, into UNCONFIGURED or into the show (R156 to R158, R161, R168). -/

namespace Sys2Proof.Machine

/-- The cause of a restart (R156). -/
inductive RestartCause where
  | powerOn | resetPin | maintExit
deriving DecidableEq, Repr

/-- The coded detail of a RESTART record (R170). -/
def RestartCause.code : RestartCause → Nat
  | .powerOn => 0
  | .resetPin => 1
  | .maintExit => 2

/-- Everything but the show memory, the fault records and the model's own queue and draws at its values without a
configuration, in a phase; the staff outputs off (R156, R158, R161; DESIGN CHOICE, assumption 33). -/
def State.blank (s : State) (phase : Phase) : State :=
  { State.reset with
    pending := s.pending, phase := phase, draws := s.draws, memory := s.memory
    faults := ⟨s.faults.records, false, false⟩ }

/-- The addresses an operation changes: its first address and the one behind its last (R165, R166). -/
def Operation.range : Operation → Nat × Nat
  | .commit row => (row, row + 256)
  | .eraseSector sector => (sector, sector + 4096)
  | .eraseContent => (0x001000, Memory.size)
  | .eraseEverything => (0, Memory.size)

/-- R168: an operation in progress is cut short; each byte of its target is settled on its own, by a free value. -/
def State.cutOperation (s : State) : State :=
  match s.port.operation with
  | none => s
  | some (.commit row, _) =>
    { s with memory := Memory.programCut s.memory s.port.latch row s.draws, draws := s.draws + 1 }
  | some (op, _) =>
    { s with memory := Memory.eraseCut s.memory op.range.1 op.range.2 s.draws, draws := s.draws + 1 }

/-! ## The values of each block at a start of the show -/

/-- R29: an input's record after the first sample of a run. -/
def Input.first (c : InputSettings) (code : BitVec 10) : Input :=
  let active := c.kind != .unused && c.compare false (levelOf code)
  { comparator := active, debounced := active, debounceCount := 0, latch := none, lastActivation := none }

/-- R40. -/
def InputUnit.atStart (c : Settings) (levels : Levels) : InputUnit :=
  { InputUnit.atRest with
    inputs := Vector.ofFn fun i : Fin 8 => Input.first c.inputs[i] levels.codes[i]
    idleTimer := some (100 * c.idleSeconds) }

/-- R118, R117: a drive record, with its first switch states and encoder levels. -/
def Drive.atStart (c : Settings) (levels : Levels) (d : Fin 4) : Drive :=
  { Drive.atRestart with
    state := if c.trackMode && d == 3 then .track else .unhomed
    homeClosed := levels.homeClosed[d], endClosed := levels.endClosed[d]
    encA := levels.encA[d], encB := levels.encB[d] }

/-- The distinct numbers of a list other than 0, in the order of their first places. -/
def distinctNonzero (ns : List Nat) : List Nat :=
  ns.foldl (fun acc n => if n = 0 ∨ acc.contains n then acc else acc ++ [n]) []

/-- R82, R101: the voice table of a hearing list. -/
def voicesOf (hearing : List Nat) : List VoiceEntry := (distinctNonzero hearing).map fun n => ⟨n, false, none⟩

/-- R78, R101. -/
def Player.atStart (c : Settings) (m : List Host.Cell) : Player :=
  { Player.atRest with voices := voicesOf c.hearing, clips := Vector.ofFn (readClip m) }

/-- R145, R148. -/
def Line.joining : Line := { Line.off with state := .joining, joiningTimer := some 50 }

/-- R1: a SCENE_BAD record for a bad scene record. -/
def State.noteScene (s : State) (place : ScenePlace) (n : Fin 64) : State :=
  match place with
  | .bad => s.recordFault .sceneBad n.val
  | _ => s

/-- R1: the scene table, and the SCENE_BAD records in ascending scene number (DEDUCED, assumption 27). -/
def State.readScenes (s : State) : State :=
  let t : State :=
    { s with engine.scenes := Vector.ofFn fun n : Fin 64 => (readScene s.memory n).scene? }
  (List.finRange 64).foldl (fun t n => t.noteScene (readScene s.memory n) n) t

/-- R157: the steps of a restart into the show once its configuration has passed, from blank values. -/
def State.startShow (s : State) (levels : Levels) : State :=
  let c := readSettings s.memory
  let t := State.indicators { s with phase := .running, settings := c }
  let t := State.readScenes { t with inputs := InputUnit.atStart c levels }
  let broken := c.trackMode && (t.beamBroken .arrive || t.beamBroken .depart)
  { t with
    player := Player.atStart c s.memory
    drives := Vector.ofFn (Drive.atStart c levels)
    track := { Track.atRestart with state := if broken then .holding else .empty }
    line := Line.joining }

/-- R157, R158: a restart with MAINT_SEL high, or a MAINT_EXIT: into the show, or UNCONFIGURED. -/
def State.intoShow (s : State) (levels : Levels) : State :=
  match configCheck s.memory with
  | some cause => s.recordFault .configInvalid cause.code
  | none => s.startShow levels

/-- R156, R161: a restart. MAINT_SEL is not sampled at a MAINT_EXIT. -/
def State.restart (s : State) (cause : RestartCause) (maintSelLow : Bool) (levels : Levels) : State :=
  let t := (s.blank .unconfigured).recordFault .restart cause.code
  if maintSelLow && cause != .maintExit then { t with phase := .maintenance } else t.intoShow levels

end Sys2Proof.Machine
end

