-- ==== Sys2Proof/Machine/PortCommands.lean ====
section
/-! DEFINITION. The maintenance port's commands and the ends of its operations (R162 to R167, R170). Outside maintenance
the port takes no command (R161). -/

namespace Sys2Proof.Machine

/-! ## The shared shape of a command -/

/-- Whether the station is in maintenance (R161). -/
def State.inMaintenance (s : State) : Bool := s.phase == .maintenance

/-- The answer bytes of the command being taken (R170). -/
def State.answer (s : State) (bytes : List Byte) : State := { s with port.answer := bytes }

/-- A command other than STATUS (R162): while BUSY it sets LATE alone, one that is not recognised too (DEDUCED,
assumption 20), its answer's bytes reading 0x00; otherwise it has its effect. -/
def portCommand (answerLength : Nat) (effect : State → State) (s : State) : Host.Outcome State Fault Refusal :=
  if s.inMaintenance then
    if s.busy then .next { s with port.late := true, port.answer := List.replicate answerLength 0x00#8 }
    else .next (effect (s.answer []))
  else .next s

/-- A command that is not carried out sets REFUSED (R162, R167). -/
def State.refuse (s : State) : State := { s with port.refused := true }

/-- Whether protection is active (R167). -/
def State.protected (s : State) : Bool := Memory.read s.memory protectAddress != Memory.erasedByte

/-- A command that protection refuses (R167). -/
def State.unlessProtected (s : State) (effect : State → State) : State :=
  if s.protected then s.refuse else effect s

/-- What the output line reads while the byte at a place of a transaction is clocked, the record the first `record` of
them (R170): 1 during the record, then the answer, then 0xFF. -/
def Port.outputByte (p : Port) (record i : Nat) : Byte :=
  if i < record then 0xFF#8 else p.answer.getD (i - record) 0xFF#8

/-! ## Records that spell no command (R162) -/

/-- TRANSACTION_DISCARD (R162): an incomplete record is discarded with no effect and no flag. -/
def execTransactionDiscard (_clockedIn : List Byte) (s : State) : Host.Outcome State Fault Refusal := .next s

/-- UNKNOWN_COMMAND (R162). -/
def execUnknownCommand (_code : Byte) (s : State) : Host.Outcome State Fault Refusal := portCommand 0 State.refuse s

/-- ERASE_ALL_SCOPE_REFUSED (R162): an ERASE_ALL whose scope is neither CONTENT nor EVERYTHING. -/
def execEraseAllScopeRefused (_scope : Byte) (s : State) : Host.Outcome State Fault Refusal :=
  portCommand 0 State.refuse s

/-! ## Reading (R163, R164) -/

/-- The answer to IDENTIFY (R170): vendor code 0x3E71, part code 0x0412, revision 0x01. -/
def identity : List Byte := [0x3E#8, 0x71#8, 0x04#8, 0x12#8, 0x01#8]

/-- IDENTIFY (R164). -/
def execIdentify (s : State) : Host.Outcome State Fault Refusal := portCommand 5 (fun t => t.answer identity) s

/-- The done, LATE and REFUSED flags clear (R163). -/
def State.clearFlags (s : State) : State :=
  { s with port.commitDone := false, port.eraseDone := false, port.late := false, port.refused := false }

/-- STATUS (R163): taken while BUSY too; it answers the flags as they stand, then clears all but BUSY. -/
def execStatus (s : State) : Host.Outcome State Fault Refusal :=
  if s.inMaintenance then .next ((s.answer [s.statusByte]).clearFlags) else .next s

/-- SET_ADDRESS (R164, R170): bit 23 of the address is not read. -/
def execSetAddress (address : BitVec 24) (s : State) : Host.Outcome State Fault Refusal :=
  portCommand 0 (fun t => { t with port.pointer := address.extractLsb' 0 23 }) s

/-- The byte a READ answers (R164, R167). -/
def State.readByte (s : State) : Byte :=
  if s.protected && decide (0xFFF < s.port.pointer.toNat) then 0x00#8
  else Memory.read s.memory s.port.pointer.toNat

/-- The pointer moves on by 1, from 0x7FFFFF to 0x000000 (R164, R165). -/
def State.advancePointer (s : State) : State := { s with port.pointer := s.port.pointer + 1 }

/-- READ (R164). -/
def execRead (s : State) : Host.Outcome State Fault Refusal := portCommand 1 (fun t => t.answer [t.readByte]) s

/-- READ_NEXT (R164). -/
def execReadNext (s : State) : Host.Outcome State Fault Refusal :=
  portCommand 1 (fun t => (t.answer [t.readByte]).advancePointer) s

/-! ## The row latch (R165) -/

/-- The position of the latch that the pointer gives: its low 8 bits. -/
def State.latchPosition (s : State) : Fin 256 := Fin.ofNat 256 s.port.pointer.toNat

/-- A byte into the latch at the pointer's position. -/
def State.loadByte (s : State) (data : Byte) : State :=
  { s with port.latch := s.port.latch.set s.latchPosition.val data s.latchPosition.isLt }

/-- LOAD (R165). -/
def execLoad (data : Byte) (s : State) : Host.Outcome State Fault Refusal :=
  portCommand 0 (fun t => t.loadByte data) s

/-- LOAD_NEXT (R165). -/
def execLoadNext (data : Byte) (s : State) : Host.Outcome State Fault Refusal :=
  portCommand 0 (fun t => (t.loadByte data).advancePointer) s

/-! ## Programming and erasing (R165 to R167) -/

/-- Starts an operation that ends a number of ms later, in whole ms of the clock (DESIGN CHOICE, assumption 50); BUSY is
set while it is in progress. -/
def State.begin (s : State) (op : Operation) (ms : Nat) : State :=
  { s with port.operation := some (op, s.clockMs + ms) }

/-- The start of the row that holds the pointer. -/
def State.row (s : State) : Nat := s.port.pointer.toNat / 256 * 256

/-- The start of the sector that holds the pointer. -/
def State.sector (s : State) : Nat := s.port.pointer.toNat / 4096 * 4096

/-- COMMIT (R165): the row is programmed 3 ms later. -/
def execCommit (s : State) : Host.Outcome State Fault Refusal :=
  portCommand 0 (fun t => t.unlessProtected fun u => u.begin (.commit u.row) 3) s

/-- ERASE_SECTOR (R166): 50 ms. -/
def execEraseSector (s : State) : Host.Outcome State Fault Refusal :=
  portCommand 0 (fun t => t.unlessProtected fun u => u.begin (.eraseSector u.sector) 50) s

/-- ERASE_ALL of scope CONTENT (R166): 2 s. -/
def execEraseAllContent (s : State) : Host.Outcome State Fault Refusal :=
  portCommand 0 (fun t => t.unlessProtected fun u => u.begin .eraseContent 2000) s

/-- ERASE_ALL of scope EVERYTHING (R166, R167): 2 s, whatever the protection. -/
def execEraseAllEverything (s : State) : Host.Outcome State Fault Refusal :=
  portCommand 0 (fun t => t.begin .eraseEverything 2000) s

/-- The operation in progress when its end time has been reached. -/
def State.operationDue (s : State) : Option Operation :=
  match s.port.operation with
  | some (op, t) => if t ≤ s.clockMs then some op else none
  | none => none

/-- The end of a COMMIT (R165): the row programmed, the latch back at 0xFF, BUSY clear and COMMIT_DONE set. -/
def State.endCommit (s : State) (row : Nat) : State :=
  { s with
    memory := Memory.program s.memory s.port.latch row
    port.latch := Vector.replicate 256 Memory.erasedByte, port.operation := none, port.commitDone := true }

/-- COMMIT_COMPLETE (R165). -/
def execCommitComplete (s : State) : Host.Outcome State Fault Refusal :=
  if s.inMaintenance then
    match s.operationDue with
    | some (.commit row) => .next (s.endCommit row)
    | _ => .next s
  else .next s

/-- The end of an erase (R166): its range reads 0xFF, BUSY clear and ERASE_DONE set. -/
def State.endErase (s : State) (op : Operation) : State :=
  { s with
    memory := Memory.erase s.memory op.range.1 op.range.2, port.operation := none, port.eraseDone := true }

/-- ERASE_COMPLETE (R166). -/
def execEraseComplete (s : State) : Host.Outcome State Fault Refusal :=
  if s.inMaintenance then
    match s.operationDue with
    | none => .next s
    | some (.commit _) => .next s
    | some op => .next (s.endErase op)
  else .next s

/-! ## The fault list and the exit (R164) -/

/-- A fault record as FAULTS answers it (R170). -/
def FaultRecord.bytes (r : FaultRecord) : List Byte :=
  [BitVec.ofNat 8 r.kind.code, r.detail] ++ be32 r.first.toNat ++ be32 r.last.toNat ++ [BitVec.ofNat 8 r.count]

/-- The answer to FAULTS: the number of records, then each, oldest first. -/
def faultsAnswer (records : List FaultRecord) : List Byte :=
  BitVec.ofNat 8 records.length :: records.flatMap FaultRecord.bytes

/-- FAULTS (R164). While BUSY its answer is the one byte of a count of 0. -/
def execFaults (s : State) : Host.Outcome State Fault Refusal :=
  portCommand 1 (fun t => t.answer (faultsAnswer t.faults.records)) s

/-- CLEAR_FAULTS (R164, R155). -/
def execClearFaults (s : State) : Host.Outcome State Fault Refusal :=
  portCommand 0 (fun t => State.indicators { t with faults.records := [] }) s

/-- EXIT (R161, R164): a restart into the show, without sampling MAINT_SEL. -/
def execExit (levels : Levels) (s : State) : Host.Outcome State Fault Refusal :=
  portCommand 0 (fun t => t.restart .maintExit false levels) s

end Sys2Proof.Machine
end

