-- ==== Sys2Proof/Machine/SceneEvents.lean ====
section
/-! DEFINITION. COOLDOWN_END, STEP_DEADLINE and AWAIT_TIMEOUT (R3, R6, R8, R19). -/

namespace Sys2Proof.Machine

/-- Whether a scene's cooldown has reached its expiry. -/
def State.cooldownDue (s : State) (n : Fin 64) : Bool := reached s.engine.cooldowns[n] s.now

/-- COOLDOWN_END (R3): the timer stops, and the retake check is made (R6). -/
def execCooldownEnd (scene : Fin 64) (s : State) : Host.Outcome State Fault Refusal :=
  if s.inShow && s.cooldownDue scene then event (fun t => (t.setCooldown scene none).raise [.retake scene]) s
  else .next s

/-- STEP_DEADLINE (R8): the slot issues its step, and the run of zero-delay steps after it. -/
def execStepDeadline (slot : Fin 4) (s : State) : Host.Outcome State Fault Refusal :=
  if s.inShow && (s.stepDue slot).isSome then event (fun t => t.runSlot slot) s else .next s

/-- Whether a slot's AWAIT has reached its limit (R19). -/
def State.awaitTimedOut (s : State) (k : Fin 4) : Bool :=
  match s.engine.slots[k].run with
  | some i =>
    match i.wait with
    | .awaiting _ deadline => reached deadline s.now
    | .delaying _ | .completed _ => false
  | none => false

/-- AWAIT_TIMEOUT (R19): the AWAIT completes TIMEOUT, a step failure (R22). -/
def execAwaitTimeout (slot : Fin 4) (s : State) : Host.Outcome State Fault Refusal :=
  if s.inShow && s.awaitTimedOut slot then event (fun t => t.completeAwait slot true) s else .next s

end Sys2Proof.Machine
end

