-- ==== Sys2Proof/Machine/ShareEvents.lean ====
section
/-! DEFINITION. ANNOUNCEMENT_DUE and ADMISSION_TIMEOUT (R68, R74, R75). -/

namespace Sys2Proof.Machine

/-- ANNOUNCEMENT_DUE (R75): a waiting change or the refresh falls due, and a LOAD is handed over. -/
def execAnnouncementDue (s : State) : Host.Outcome State Fault Refusal :=
  if s.inShow && s.announcementDue then event State.handOverLoad s else .next s

/-- The entry of a drive that has waited 500 ticks; a segment start has no limit (R68). -/
def State.expiredEntry (s : State) (d : Fin 4) : Option AdmissionEntry :=
  s.share.admissions.find? fun e => e.drive == d && e.kind != .segmentStart && decide (e.entered + 500 ≤ s.now)

/-- The slot that asked for a drive's request and still owns the drive (R22, R68). -/
def State.owningRequester (s : State) (d : Fin 4) : Option Requester :=
  match s.drives[d].requester, s.engine.driveOwners[d] with
  | some r, some o => if o.slot = r.slot then some r else none
  | _, _ => none

/-- R68, R115: a drive's request fails with NO_POWER. -/
def State.failDriveRequest (s : State) (d : Fin 4) : State :=
  let t := State.recordFault (((s.setDrive d s.drives[d].unstarted).dropEntry d).recompute) .noPower d.val
  let t :=
    match s.owningRequester d with
    | some r => t.lateOutcome (.drive d) r
    | none => t
  t.completeAwaits (.drive d) .failed

/-- R68, R121: the segment request of a SEND fails with NO_POWER. -/
def State.failSegmentRequest (s : State) : State := (s.endAsk.recordFault .noPower 3).trackFailed

/-- R68 for an entry of the list. -/
def State.failAdmission (s : State) (e : AdmissionEntry) : State :=
  match e.kind with
  | .driveRun => s.failDriveRequest e.drive
  | .segmentSend => s.failSegmentRequest
  | .segmentStart => s

/-- ADMISSION_TIMEOUT (R68). -/
def execAdmissionTimeout (drive : Fin 4) (s : State) : Host.Outcome State Fault Refusal :=
  if s.inShow then
    match s.expiredEntry drive with
    | some e => event (fun t => t.failAdmission e) s
    | none => .next s
  else .next s

end Sys2Proof.Machine
end

