-- ==== Sys2Proof/Machine/TrackEvents.lean ====
section
/-! DEFINITION. RETRY_TIMER_EXPIRY, GIVE_UP_TIMER_EXPIRY, GRANT_TIMER_EXPIRY and SETTLE_END (R122, R125, R127). -/

namespace Sys2Proof.Machine

/-- Whether the retry timer has expired (R122). -/
def State.retryDue (s : State) : Bool := s.asked && reached s.track.retryTimer s.now

/-- R122: the timer is set again, and a BLOCK_ASK handed over unless one still waits. -/
def State.retryAsk (s : State) : State :=
  let t : State := { s with track.retryTimer := some (s.now + 100) }
  if s.askWaiting then t else t.handOverAsk

/-- RETRY_TIMER_EXPIRY (R122). -/
def execRetryTimerExpiry (s : State) : Host.Outcome State Fault Refusal :=
  if s.inShow && s.retryDue then event State.retryAsk s else .next s

/-- Whether the give-up timer has expired (R122). -/
def State.giveUpDue (s : State) : Bool := s.asked && reached s.track.giveUpTimer s.now

/-- GIVE_UP_TIMER_EXPIRY (R122). -/
def execGiveUpTimerExpiry (s : State) : Host.Outcome State Fault Refusal :=
  if s.inShow && s.giveUpDue then event State.giveUpAsk s else .next s

/-- Whether the grant timer has expired (R125, R127); frozen by a halt, it does not (R130). -/
def State.grantDue (s : State) : Bool := s.inHandover && s.track.grantTimer.due s.now

/-- GRANT_TIMER_EXPIRY (R125, R127). -/
def execGrantTimerExpiry (s : State) : Host.Outcome State Fault Refusal :=
  if s.inShow && s.grantDue then event State.trackLost s else .next s

/-- Whether the settle end has been reached (R127). -/
def State.settleDue (s : State) : Bool := s.track.state == .receiving && s.track.settle.due s.now

/-- SETTLE_END (R127). -/
def execSettleEnd (s : State) : Host.Outcome State Fault Refusal :=
  if s.inShow && s.settleDue then event State.receiveComplete s else .next s

end Sys2Proof.Machine
end

