-- ==== Sys2Proof/Machine/Clock.lean ====
section
/-! DEFINITION. What the station does when no command waits (DESIGN CHOICE, assumption 2): the events its own
timers have due are put in the queue, one at a time; when none is due, the time of one sample passes. -/

namespace Sys2Proof.Machine

/-- A command, when its event is due. -/
def dueIf (due : Bool) (c : Instr) : List Instr := if due then [c] else []

/-- The timer events due in the show. -/
def State.showEvents (s : State) : List Instr :=
  ((List.finRange 8).flatMap fun i => dueIf (s.latchDue i) (.latchExpiry i)) ++
    ((List.finRange 64).flatMap fun n => dueIf (s.cooldownDue n) (.cooldownEnd n)) ++
    ((List.finRange 4).flatMap fun k =>
      dueIf (s.stepDue k).isSome (.stepDeadline k) ++ dueIf (s.awaitTimedOut k) (.awaitTimeout k)) ++
    dueIf s.quietDue .quietTimerExpiry ++ dueIf s.idleDue .idleTimerExpiry ++
    ((List.finRange 12).flatMap fun c => dueIf (s.fadeStepDue c) (.fadeStep c)) ++
    dueIf s.announcementDue .announcementDue ++
    ((List.finRange 4).flatMap fun d => dueIf (s.expiredEntry d).isSome (.admissionTimeout d)) ++
    (s.player.voices.flatMap fun v => dueIf (s.voiceDue v.station) (.voiceEntryExpiry v.station)) ++
    (s.player.queue.flatMap fun e => dueIf (s.impatient e.slot e.clip).isSome (.patienceExpiry e.slot e.clip)) ++
    dueIf s.windowDue .windowEnd ++ dueIf (s.player.state == .playing && s.clipOver) .clipEnd ++
    dueIf s.fadeOutOver .fadeOutEnd ++
    ((List.finRange 4).flatMap fun d =>
      dueIf (s.atRest d) (.stillTimerExpiry d) ++ dueIf (s.stallDue d) (.stallTimerExpiry d) ++
        dueIf (s.brakeDue d) (.haltBrakeEnd d)) ++
    dueIf s.retryDue .retryTimerExpiry ++ dueIf s.giveUpDue .giveUpTimerExpiry ++
    dueIf s.grantDue .grantTimerExpiry ++ dueIf s.settleDue .settleEnd ++
    (s.line.peers.flatMap fun p => dueIf (s.peerDue p.station) (.peerAgeOut p.station)) ++
    dueIf (s.line.state == .mute && s.muteDue) .muteTimerExpiry ++ dueIf s.joiningDue .joiningTimerExpiry

/-- The operation whose end is due in maintenance. -/
def State.portEvents (s : State) : List Instr :=
  match s.operationDue with
  | none => []
  | some (.commit _) => [.commitComplete]
  | some _ => [.eraseComplete]

/-- The station's own events that are due now. -/
def State.dueEvents (s : State) : List Instr :=
  match s.phase with
  | .running => s.showEvents
  | .maintenance => s.portEvents
  | _ => []

/-- The clock a sixteenth of a ms later; with a full ms passed, every dimmer takes up its output level (R50). -/
def State.tickClock (s : State) : State :=
  if s.sampleClock = 15 then
    { s with
      sampleClock := 0, clockMs := s.clockMs + 1
      lamps := Vector.ofFn fun c : Fin 12 => { s.lamps[c] with dimmer := s.lamps[c].output } }
  else { s with sampleClock := s.sampleClock + 1 }

/-- The time of one sample passes, 1/16 ms: 16,000 samples make a second (R80), and a clip being played sends its next
one (DESIGN CHOICE, assumption 24). Time stands while the station has no supply or is held in reset (DESIGN CHOICE,
assumption 29). -/
def State.passTime (s : State) : State :=
  match s.phase with
  | .powerOff | .heldInReset => s
  | _ => s.tickClock.sendSample

/-- The station with no command waiting. Which of several events due at one time comes first is a free value. -/
def State.idle (s : State) : State :=
  match s.dueEvents with
  | [] => s.passTime
  | [e] => { s with pending := [e] }
  | e :: es =>
    { s with
      pending := [(e :: es).getD (Config.nextDue s.draws % (e :: es).length) e], draws := s.draws + 1 }

end Sys2Proof.Machine
end

