-- ==== Sys2Proof/Machine/FrameEvents.lean ====
section
/-! DEFINITION. The received frames, kind by kind: each is checked and its sender noted by `State.receive` (R141 to
R147), then acts as its owner's rules say. -/

namespace Sys2Proof.Machine

/-! ## HALT and RESUME (R150, R151) -/

/-- HALT_RECEIVED (R150). The reason a frame carries is not used. -/
def execHaltReceived (frame : Frame) (s : State) : Host.Outcome State Fault Refusal :=
  event (fun t => t.receive .halt frame State.haltFrame) s

/-- RESUME_RECEIVED (R151, R152). -/
def execResumeReceived (frame : Frame) (s : State) : Host.Outcome State Fault Refusal :=
  event (fun t => t.receive .resume frame State.resumeFrame) s

/-! ## Narration claims (R83, R84, R92, R96) -/

/-- Whether a claim of a priority from a station outranks the current entry's (section 5.5, R92). -/
def State.outranked (s : State) (source priority : Nat) : Bool :=
  match s.player.current with
  | some e => decide (e.priority < priority) || (e.priority == priority && decide (source < s.settings.station))
  | none => false

/-- The current entry's priority, sent in a TALK_BUSY (R96). -/
def State.currentPriority (s : State) : Nat := (s.player.current.map fun e => e.priority).getD 0

/-- A TALK_INTENT (R83, R92, R96). -/
def State.hearIntent (source priority duration : Nat) (s : State) : State :=
  let t := s.setVoice source (.talkUntil (s.now + 10 * duration + 200))
  match s.player.state with
  | .idle => t
  | .settling => if s.hears source && s.outranked source priority then t.backOff else t
  | .playing | .fadingOut => t.handOver (.talkBusy source s.currentPriority s.remainingUnits)

/-- TALK_INTENT_RECEIVED (R83, R92, R96). -/
def execTalkIntentReceived (frame : Frame) (s : State) : Host.Outcome State Fault Refusal :=
  event (fun t => t.receive .talkIntent frame
    (State.hearIntent frame.source (frame.byte 0 % 8) (frame.word 1))) s

/-- A TALK_BUSY (R83, R92): addressed to this or to another station, it makes the sender's entry TALKING; addressed to
this one it sets the expiry too, and ends a claim that a station with an entry answers. A destination that names no
station leaves the table alone (R169). -/
def State.hearBusy (source dest remaining : Nat) (s : State) : State :=
  if !namesStation dest then s
  else if dest = s.settings.station then
    let t := s.setVoice source (.talkUntil (s.now + 10 * remaining + 200))
    if s.hears source && s.player.state == .settling then t.backOff else t
  else s.setVoice source .talkOn

/-- TALK_BUSY_RECEIVED (R83, R92). -/
def execTalkBusyReceived (frame : Frame) (s : State) : Host.Outcome State Fault Refusal :=
  event (fun t => t.receive .talkBusy frame (State.hearBusy frame.source (frame.byte 0) (frame.word 2))) s

/-- A TALK_END (R84): the entry becomes QUIET, and the start condition is checked (R90). -/
def State.hearEnd (source : Nat) (s : State) : State :=
  if s.hears source then (s.setVoice source .quiet).checkStart else s

/-- TALK_END_RECEIVED (R84). -/
def execTalkEndReceived (frame : Frame) (s : State) : Host.Outcome State Fault Refusal :=
  event (fun t => t.receive .talkEnd frame (State.hearEnd frame.source)) s

/-! ## The shared track (R120, R122, R124, R126, R128) -/

/-- Whether a BLOCK frame for a destination reaches the Track Block (R119, R142). -/
def State.forTrack (s : State) (dest : Nat) : Bool := s.settings.trackMode && dest == s.settings.station

/-- A BLOCK_ASK (R120, R126): taken from the upstream station while the line is ACTIVE. -/
def State.hearAsk (source dest : Nat) (speedClass : Fin 4) (s : State) : State :=
  if s.forTrack dest && source == s.settings.upstream && s.line.state == .active then s.takeAsk source speedClass
  else s

/-- BLOCK_ASK_RECEIVED (R126). -/
def execBlockAskReceived (frame : Frame) (s : State) : Host.Outcome State Fault Refusal :=
  event (fun t => t.receive .blockAsk frame
    (State.hearAsk frame.source (frame.byte 0) (Fin.ofNat 4 (frame.byte 1)))) s

/-- A BLOCK_GRANT taken from the downstream station (R124). -/
def State.takeGrant (s : State) (source : Nat) : State :=
  match s.track.state with
  | .askingAsked => s.enterSending
  | .sending => s
  | _ => s.handOver (.blockRelease source .cancel)

/-- A BLOCK_GRANT (R120). -/
def State.hearGrant (source dest : Nat) (s : State) : State :=
  if s.forTrack dest && source == s.settings.downstream then s.takeGrant source else s

/-- BLOCK_GRANT_RECEIVED (R124). -/
def execBlockGrantReceived (frame : Frame) (s : State) : Host.Outcome State Fault Refusal :=
  event (fun t => t.receive .blockGrant frame (State.hearGrant frame.source (frame.byte 0))) s

/-- A BLOCK_HELD (R120, R122), with either cause: the next ask follows a full interval later. -/
def State.hearHeld (source dest : Nat) (s : State) : State :=
  if s.forTrack dest && source == s.settings.downstream && s.track.state == .askingAsked then
    { s with track.retryTimer := some (s.now + 100) }
  else s

/-- BLOCK_HELD_RECEIVED (R122). -/
def execBlockHeldReceived (frame : Frame) (s : State) : Host.Outcome State Fault Refusal :=
  event (fun t => t.receive .blockHeld frame (State.hearHeld frame.source (frame.byte 0))) s

/-- A BLOCK_RELEASE taken in RECEIVING (R128). -/
def State.takeRelease (s : State) (outcome : ReleaseOutcome) : State :=
  match outcome with
  | .done => s
  | .cancel => (s.endHandover .empty).trackOutcome .done
  | .failed => s.trackLost

/-- A BLOCK_RELEASE (R120, R128). -/
def State.hearRelease (source dest : Nat) (outcome : ReleaseOutcome) (s : State) : State :=
  if s.forTrack dest && source == s.settings.upstream && s.track.state == .receiving then s.takeRelease outcome
  else s

/-- BLOCK_RELEASE_RECEIVED (R128). -/
def execBlockReleaseReceived (frame : Frame) (s : State) : Host.Outcome State Fault Refusal :=
  event (fun t => t.receive .blockRelease frame
    (State.hearRelease frame.source (frame.byte 0) (releaseOutcomeOf (frame.byte 1)))) s

/-! ## Cues and demands (R21, R143, R145) -/

/-- A CUE (R21): a trigger when it is addressed to every station or to this one. -/
def State.hearCue (source dest tag : Nat) (s : State) : State :=
  if dest = 0 ∨ dest = s.settings.station then s.raiseTrigger (.cue source tag) else s

/-- CUE_RECEIVED (R21). -/
def execCueReceived (frame : Frame) (s : State) : Host.Outcome State Fault Refusal :=
  event (fun t => t.receive .cue frame (State.hearCue frame.source (frame.byte 0) (frame.byte 1))) s

/-- A LOAD (R143, R145, R152): during joining, while the joining timer runs, a halted flag of any group sets the
joining-halt flag (DEDUCED, assumption 32). -/
def State.hearLoad (source demand group : Nat) (halted : Bool) (s : State) : State :=
  let t : State :=
    if s.line.joiningTimer.isSome then { s with line.joiningHalt := s.line.joiningHalt || halted } else s
  t.takeLoad source demand group

/-- LOAD_RECEIVED (R143). -/
def execLoadReceived (frame : Frame) (s : State) : Host.Outcome State Fault Refusal :=
  event (fun t => t.receive .load frame
    (State.hearLoad frame.source (frame.word 0) (frame.byte 2 % 8) (decide (frame.byte 3 % 2 = 1)))) s

end Sys2Proof.Machine
end

