-- ==== Sys2Proof/Machine/PowerCommands.lean ====
section
/-! DEFINITION. POWER_ON, POWER_LOSS, RESET_ASSERT, RESET_RELEASE and SUPPLY_RISE_WITH_RESET_LOW (R156, R168). Each says
of itself what must have come before it: a rise of the supply ends what was running as a loss of power does, a release
of RESET as an assertion does (DESIGN CHOICE, assumption 8). -/

namespace Sys2Proof.Machine

/-- POWER_ON (R156): the fault list is emptied, and the station restarts with cause POWER_ON. -/
def execPowerOn (maintSelLow : Bool) (levels : Levels) (s : State) : Host.Outcome State Fault Refusal :=
  .next (State.restart { s.cutOperation with faults.records := [] } .powerOn maintSelLow levels)

/-- POWER_LOSS (R168): an operation in progress is cut short; the show memory alone is kept, and the fault list until
the rise that empties it (R156). -/
def execPowerLoss (s : State) : Host.Outcome State Fault Refusal :=
  .next (s.cutOperation.blank .powerOff)

/-- RESET_ASSERT (R156): every output off, the line recessive, and nothing kept but the fault list and the show
memory. With no supply it has no effect. -/
def execResetAssert (s : State) : Host.Outcome State Fault Refusal :=
  if s.phase = .powerOff then .next s else .next (s.cutOperation.blank .heldInReset)

/-- RESET_RELEASE (R156): a restart with cause RESET_PIN. With no supply it has no effect. -/
def execResetRelease (maintSelLow : Bool) (levels : Levels) (s : State) : Host.Outcome State Fault Refusal :=
  if s.phase = .powerOff then .next s else .next (s.cutOperation.restart .resetPin maintSelLow levels)

/-- SUPPLY_RISE_WITH_RESET_LOW (R156): the fault list is empty from the rise, and the station is held in reset. -/
def execSupplyRiseWithResetLow (s : State) : Host.Outcome State Fault Refusal :=
  .next (State.blank { s.cutOperation with faults.records := [] } .heldInReset)

end Sys2Proof.Machine
end

