-- ==== Sys2Proof/Machine/Dispatch.lean ====
section
/-! DEFINITION. The dispatch: one arm per command, each one call of its meaning. -/

namespace Sys2Proof.Machine

def exec (i : Instr) (s : State) : Host.Outcome State Fault Refusal :=
  match i with
  | .powerOn maintSelLow levels => Sys2Proof.Machine.execPowerOn maintSelLow levels s
  | .powerLoss => Sys2Proof.Machine.execPowerLoss s
  | .resetAssert => Sys2Proof.Machine.execResetAssert s
  | .resetRelease maintSelLow levels => Sys2Proof.Machine.execResetRelease maintSelLow levels s
  | .inputSample input code => Sys2Proof.Machine.execInputSample input code s
  | .latchExpiry input => Sys2Proof.Machine.execLatchExpiry input s
  | .cooldownEnd scene => Sys2Proof.Machine.execCooldownEnd scene s
  | .stepDeadline slot => Sys2Proof.Machine.execStepDeadline slot s
  | .awaitTimeout slot => Sys2Proof.Machine.execAwaitTimeout slot s
  | .quietTimerExpiry => Sys2Proof.Machine.execQuietTimerExpiry s
  | .idleTimerExpiry => Sys2Proof.Machine.execIdleTimerExpiry s
  | .fadeStep channel => Sys2Proof.Machine.execFadeStep channel s
  | .announcementDue => Sys2Proof.Machine.execAnnouncementDue s
  | .admissionTimeout drive => Sys2Proof.Machine.execAdmissionTimeout drive s
  | .voiceEntryExpiry station => Sys2Proof.Machine.execVoiceEntryExpiry station s
  | .patienceExpiry slot clip => Sys2Proof.Machine.execPatienceExpiry slot clip s
  | .windowEnd => Sys2Proof.Machine.execWindowEnd s
  | .clipEnd => Sys2Proof.Machine.execClipEnd s
  | .fadeOutEnd => Sys2Proof.Machine.execFadeOutEnd s
  | .encoderCount drive lineA lineB => Sys2Proof.Machine.execEncoderCount drive lineA lineB s
  | .stillTimerExpiry drive => Sys2Proof.Machine.execStillTimerExpiry drive s
  | .stallTimerExpiry drive => Sys2Proof.Machine.execStallTimerExpiry drive s
  | .currentSample drive code => Sys2Proof.Machine.execCurrentSample drive code s
  | .switchClose drive which => Sys2Proof.Machine.execSwitchClose drive which s
  | .haltBrakeEnd drive => Sys2Proof.Machine.execHaltBrakeEnd drive s
  | .retryTimerExpiry => Sys2Proof.Machine.execRetryTimerExpiry s
  | .giveUpTimerExpiry => Sys2Proof.Machine.execGiveUpTimerExpiry s
  | .grantTimerExpiry => Sys2Proof.Machine.execGrantTimerExpiry s
  | .settleEnd => Sys2Proof.Machine.execSettleEnd s
  | .haltReceived frame => Sys2Proof.Machine.execHaltReceived frame s
  | .resumeReceived frame => Sys2Proof.Machine.execResumeReceived frame s
  | .talkIntentReceived frame => Sys2Proof.Machine.execTalkIntentReceived frame s
  | .talkBusyReceived frame => Sys2Proof.Machine.execTalkBusyReceived frame s
  | .talkEndReceived frame => Sys2Proof.Machine.execTalkEndReceived frame s
  | .blockAskReceived frame => Sys2Proof.Machine.execBlockAskReceived frame s
  | .blockGrantReceived frame => Sys2Proof.Machine.execBlockGrantReceived frame s
  | .blockHeldReceived frame => Sys2Proof.Machine.execBlockHeldReceived frame s
  | .blockReleaseReceived frame => Sys2Proof.Machine.execBlockReleaseReceived frame s
  | .cueReceived frame => Sys2Proof.Machine.execCueReceived frame s
  | .loadReceived frame => Sys2Proof.Machine.execLoadReceived frame s
  | .peerAgeOut station => Sys2Proof.Machine.execPeerAgeOut station s
  | .transmissionAttempt => Sys2Proof.Machine.execTransmissionAttempt s
  | .arbitrationLost => Sys2Proof.Machine.execArbitrationLost s
  | .readbackAbort => Sys2Proof.Machine.execReadbackAbort s
  | .transmissionSuccess => Sys2Proof.Machine.execTransmissionSuccess s
  | .muteTimerExpiry => Sys2Proof.Machine.execMuteTimerExpiry s
  | .joiningTimerExpiry => Sys2Proof.Machine.execJoiningTimerExpiry s
  | .lineStuck => Sys2Proof.Machine.execLineStuck s
  | .stuckHoldClear => Sys2Proof.Machine.execStuckHoldClear s
  | .transactionDiscard clockedIn => Sys2Proof.Machine.execTransactionDiscard clockedIn s
  | .unknownCommand code => Sys2Proof.Machine.execUnknownCommand code s
  | .identify => Sys2Proof.Machine.execIdentify s
  | .status => Sys2Proof.Machine.execStatus s
  | .setAddress address => Sys2Proof.Machine.execSetAddress address s
  | .read => Sys2Proof.Machine.execRead s
  | .readNext => Sys2Proof.Machine.execReadNext s
  | .load data => Sys2Proof.Machine.execLoad data s
  | .loadNext data => Sys2Proof.Machine.execLoadNext data s
  | .commit => Sys2Proof.Machine.execCommit s
  | .commitComplete => Sys2Proof.Machine.execCommitComplete s
  | .eraseSector => Sys2Proof.Machine.execEraseSector s
  | .eraseAllContent => Sys2Proof.Machine.execEraseAllContent s
  | .eraseAllEverything => Sys2Proof.Machine.execEraseAllEverything s
  | .eraseComplete => Sys2Proof.Machine.execEraseComplete s
  | .faults => Sys2Proof.Machine.execFaults s
  | .clearFaults => Sys2Proof.Machine.execClearFaults s
  | .exit levels => Sys2Proof.Machine.execExit levels s
  | .switchOpen drive which => Sys2Proof.Machine.execSwitchOpen drive which s
  | .supplyRiseWithResetLow => Sys2Proof.Machine.execSupplyRiseWithResetLow s
  | .eraseAllScopeRefused scope => Sys2Proof.Machine.execEraseAllScopeRefused scope s

end Sys2Proof.Machine
end

