-- ==== Sys2Proof/Machine/Step.lean ====
section
/-! DEFINITION. The step of the station, and how the host puts a command in front of its queue. -/

namespace Sys2Proof.Machine

/-- Takes the command at the front of the queue, and carries it out on the station with the rest of the queue; with none
waiting, the station idles (DESIGN CHOICE, assumption 2). -/
def step (s : State) : Host.Outcome State Fault Refusal :=
  match s.pending with
  | [] => .next s.idle
  | c :: rest => exec c { s with pending := rest }

/-- The state with the command that a word of the table spells put in front of its queue; unchanged where the word spells
none (DEDUCED, assumption 3). -/
def State.withFetchWord (s : State) (nbits w : Nat) : State :=
  match decodeTableWord nbits w with
  | some c => { s with pending := c :: s.pending }
  | none => s

end Sys2Proof.Machine
end

