-- ==== Sys2Proof/Safety.lean ====
section
/-! DEFINITION. What counts as a safe state, in the terms the statements use: invariants of the machine read from the
manual, each a predicate of one state. -/

namespace Sys2Proof.Machine

/-- No event is half done: no work and no announcement check is left over (the model's own fields). -/
structure Settled (s : State) : Prop where
  noWorks : s.works = []
  noCheck : s.announceCheck = false

/-- No list outgrows its capacity: the fault list (R153), the transmit queue (R138), the wait queue (R85) and the peer
table (R143). -/
structure Bounded (s : State) : Prop where
  records : s.faults.records.length ≤ 8
  frames : s.line.queue.length ≤ 8
  requests : s.player.queue.length ≤ 8
  peers : s.line.peers.length ≤ 32

/-- The row a COMMIT in progress programs lies in the show memory (R159, R165). -/
def rowInMemory (s : State) : Prop :=
  ∀ row t, s.port.operation = some (.commit row, t) → row + 256 ≤ Memory.size

/-- The occupancy lies within 0 to 255, the bay is OCCUPIED exactly when it is above 0, and while the Input Unit runs the
quiet timer runs exactly in OCCUPIED and the idle timer exactly in EMPTY (R34). -/
structure BayAgrees (s : State) : Prop where
  range : s.inputs.occupancy ≤ 255
  occupied : s.inputs.bay = .occupied ↔ 0 < s.inputs.occupancy
  quiet : s.inShow = true → (s.inputs.quietTimer.isSome = true ↔ s.inputs.bay = .occupied)
  idle : s.inShow = true → (s.inputs.idleTimer.isSome = true ↔ s.inputs.bay = .empty)

/-- The track segment runs, and waits to run, only while its block is SENDING or RECEIVING (R119, R72); the request of a
SEND waits only while its block is ASKING in phase POWER (R70, R121). -/
structure SegmentSafe (s : State) : Prop where
  running : s.track.running = true → s.inHandover = true
  starting : ∀ e ∈ s.share.admissions, e.kind = .segmentStart → e.drive = 3 ∧ s.inHandover = true
  asking : ∀ e ∈ s.share.admissions, e.kind = .segmentSend → e.drive = 3 ∧ s.track.state = .askingPower

/-- While HALTED every scene slot is FREE, the player is IDLE with an empty wait queue, no drive runs or asks to run, and
the track segment neither runs nor asks (R149). -/
structure HaltSafe (s : State) : Prop where
  slots : s.halted = true → ∀ k : Fin 4, s.engine.slots[k].run = none
  player : s.halted = true → s.player.state = .idle ∧ s.player.queue = []
  drives : s.halted = true → ∀ d : Fin 4,
    s.drives[d].state ≠ .moving ∧ s.drives[d].state ≠ .homing ∧ s.drives[d].state ≠ .pendingPower
  track : s.halted = true → s.track.running = false ∧ s.asking = false

/-- The invariant of every step: nothing half done, every list within its capacity, the show memory in its canonical form
with a COMMIT's row inside it, and the bay in agreement with its count. -/
structure Inv (s : State) : Prop where
  settled : Settled s
  bounded : Bounded s
  memory : Memory.wf s.memory = true
  row : rowInMemory s
  bay : BayAgrees s

/-! ## Conditions that the statements share -/

/-- The station runs its show, and no event is half done. -/
structure Ready (s : State) : Prop where
  phase : s.phase = .running
  settled : Settled s

/-- No slot is AWAITING a subject (R19). -/
def NobodyAwaits (s : State) (subject : Subject) : Prop := ∀ k : Fin 4, s.engine.slots[k].awaits subject = false

/-- A recomputation starts no request: the station is HALTED, or none waits (R63, R73). -/
def NothingWaits (s : State) : Prop := s.halted = true ∨ s.share.admissions = []

/-- As above once the requests of one drive have left the list. -/
def NothingElseWaits (s : State) (d : Fin 4) : Prop :=
  s.halted = true ∨ ∀ e ∈ s.share.admissions, e.drive = d

/-- The maintenance port takes commands: the station is in maintenance, and no operation is in progress (R161, R163). -/
structure PortFree (s : State) : Prop where
  phase : s.phase = .maintenance
  operation : s.port.operation = none

/-- A valid frame of a kind from another station reaches a station that runs its show with its line on (R141, R142). -/
structure Hears (s : State) (k : FrameKind) (f : Frame) : Prop where
  ready : Ready s
  line : s.line.state ≠ .off
  valid : f.valid k = true
  source : f.source ≠ s.settings.station

/-- The sample activates the input: a used input, inactive before it, whose debounced state becomes active (R27, R28). -/
structure Activates (s : State) (i : Fin 8) (code : BitVec 10) : Prop where
  used : s.settings.inputs[i].kind ≠ .unused
  before : s.inputs.inputs[i].debounced = false
  after : (s.inputs.inputs[i].sample s.settings.inputs[i] (levelOf code)).debounced = true

/-- The sample releases the input: a used input, active before it, whose debounced state becomes inactive (R27, R28). -/
structure Releases (s : State) (i : Fin 8) (code : BitVec 10) : Prop where
  used : s.settings.inputs[i].kind ≠ .unused
  before : s.inputs.inputs[i].debounced = true
  after : (s.inputs.inputs[i].sample s.settings.inputs[i] (levelOf code)).debounced = false

/-- The state with an input's sample taken (R27, R28). -/
def sampled (s : State) (i : Fin 8) (code : BitVec 10) : State :=
  s.setInput i (s.inputs.inputs[i].sample s.settings.inputs[i] (levelOf code))

/-- The state with an input's activating sample taken, its last activation time set (R30). -/
def activated (s : State) (i : Fin 8) (code : BitVec 10) : State :=
  s.setInput i { s.inputs.inputs[i].sample s.settings.inputs[i] (levelOf code) with lastActivation := some s.now }

/-- A slot issues a step now, decoded as an action, and its scene has a next step with a delay (R8, R9). -/
structure Issues (s : State) (k : Fin 4) (i : Running) (a : Action) (next : StepRecord) : Prop where
  ready : Ready s
  run : s.engine.slots[k].run = some i
  due : ∃ e, i.wait = .delaying e ∧ e ≤ s.now
  step : ∃ sc r, s.scene? i.scene = some sc ∧ sc.steps[i.stepIndex]? = some r ∧
    decodeStep s.settings.trackMode r = some a ∧ sc.steps[i.stepIndex + 1]? = some next
  delay : 0 < next.delay

/-- A scene that the tests of R5 let start, in the lowest FREE slot, with a delay before its first step. -/
structure Starts (s : State) (n : Fin 64) (sc : Scene) (first : StepRecord) (k : Fin 4) : Prop where
  present : s.scene? n = some sc
  step : sc.steps[0]? = some first
  delay : 0 < first.delay
  running : s.halt = none
  visitors : sc.needsPresence = true → 0 < s.inputs.occupancy
  cooled : s.engine.cooldowns[n] = none
  inactive : ∀ (j : Fin 4) run, s.engine.slots[j].run = some run → run.scene ≠ n
  free : s.engine.slots[k].run = none
  lowest : ∀ j : Fin 4, j < k → s.engine.slots[j].run ≠ none

/-- The state with a scene started in a slot: its instance, and its cooldown running (R3, R7). -/
def startedIn (s : State) (n : Fin 64) (sc : Scene) (first : StepRecord) (k : Fin 4) : State :=
  State.setSlot (s.setCooldown n (if sc.cooldown = 0 then none else some (s.now + 100 * sc.cooldown))) k
    ⟨some ⟨n, sc.priority, s.now, 0, .delaying (s.now + first.delay), .none, 0⟩, s.engine.slots[k].mark + 1⟩

/-- No kept latch asks for a scene again when its instance ends (R6). -/
def NoRetake (s : State) (sc : Scene) : Prop :=
  ∀ i, sc.trigger = .input i → sc.policy = .hold → s.inputs.inputs[i].latch = none

/-- An owner record once a slot's instance has ended (R9, R11, R23): cleared when it names the slot. -/
def ownerAfter (k : Fin 4) (o : Option Owner) : Option Owner :=
  if o.map (fun x => x.slot) = some k then none else o

/-- A slot that has moved on past a step to the next one (R8): its instance, with that step's deadline. -/
def movedOn (s : State) (i : Running) (next : StepRecord) : Running :=
  { i with stepIndex := i.stepIndex + 1, wait := .delaying (s.now + next.delay) }

/-- A slot AWAITS a subject, and its scene has a next step with a delay (R8, R19). -/
structure AwaitsNext (s : State) (k : Fin 4) (i : Running) (subject : Subject) (next : StepRecord) : Prop where
  run : s.engine.slots[k].run = some i
  wait : ∃ deadline, i.wait = .awaiting subject deadline
  step : ∃ sc, s.scene? i.scene = some sc ∧ sc.steps[i.stepIndex + 1]? = some next
  delay : 0 < next.delay

/-- A slot, and no other, AWAITS a subject, with a next step to move on to (R19). -/
structure AwaitsAlone (s : State) (k : Fin 4) (i : Running) (subject : Subject) (next : StepRecord) : Prop where
  next : AwaitsNext s k i subject next
  alone : ∀ m : Fin 4, s.engine.slots[m].awaits subject = true → m = k

/-- A drive or channel is owned by another slot than this one (R11, R12). -/
def OtherOwns (owner : Option Owner) (k : Fin 4) : Prop := ∃ o, owner = some o ∧ o.slot ≠ k

/-- An AWAIT issued by a slot completes at once DONE or PREEMPTED (R19). -/
def PassesAtOnce (s : State) (k : Fin 4) (handle : Handle) (subject : Subject) : Prop :=
  match subject with
  | .narration => handle = .none ∨ handle = .done
  | .drive d => s.drives[d].state = .idle ∨ s.drives[d].state = .unhomed ∨
      ((s.drives[d].state = .homing ∨ s.drives[d].state = .pendingPower ∨ s.drives[d].state = .moving) ∧
        OtherOwns s.engine.driveOwners[d] k)
  | .fade c => s.lamps[c].fading = false ∨ OtherOwns s.engine.channelOwners[c] k
  | .track => s.track.state = .empty ∨ s.track.state = .holding

/-- An AWAIT completes at once FAILED (R19). -/
def FailsAtOnce (s : State) (handle : Handle) (subject : Subject) : Prop :=
  match subject with
  | .narration => handle = .dropped ∨ handle = .expired
  | .drive d => s.drives[d].state = .faulted
  | .fade _ => False
  | .track => s.track.state = .faulted

/-- The state with a slot's instance gone (R9, R23): the slot FREE with its mark kept, its owner records cleared. -/
def freed (s : State) (k : Fin 4) : State :=
  State.setSlot
    { s with
      engine.channelOwners := s.engine.channelOwners.map (ownerAfter k)
      engine.driveOwners := s.engine.driveOwners.map (ownerAfter k) } k ⟨none, s.engine.slots[k].mark⟩

/-- The state with a slot's AWAIT failed (R19, R22): under CONTINUE past it, under ABANDON with its instance gone. -/
def failedOn (s : State) (k : Fin 4) (i : Running) (next : StepRecord) (sc : Scene) : State :=
  if sc.abandon then freed s k else s.setSlot k ⟨some (movedOn s i next), s.engine.slots[k].mark⟩

/-- How a failure on a subject reaches the scenes (R19, R22), as what it leaves of the Scene Engine. A slot that `asked`
for the failed work and does not wait on it carries on under CONTINUE, and its instance is cancelled under ABANDON. A
slot that AWAITS the subject fails there, once, by its own policy. `alone` keeps a cancel to the slot itself. -/
def FailureReaches (s : State) (subject : Subject) (asked alone : Fin 4 → Prop) (leaves : SceneEngine → Prop) : Prop :=
  (NobodyAwaits s subject → (∀ k, asked k → s.abandons k = false) → leaves s.engine) ∧
  (∀ k i sc, NobodyAwaits s subject → asked k → s.engine.slots[k].run = some i → s.scene? i.scene = some sc →
    sc.abandon = true → alone k → NoRetake s sc → leaves (freed s k).engine) ∧
  ∀ j i next sc, AwaitsAlone s j i subject next → s.scene? i.scene = some sc → (∀ k, asked k → k = j) →
    (sc.abandon = true → alone j ∧ NoRetake s sc) → leaves (failedOn s j i next sc).engine

/-- A timer runs and its expiry has been reached. -/
def expired (timer : Option Tick) (now : Tick) : Prop := ∃ e, timer = some e ∧ e ≤ now

/-- A claim whose TALK_INTENT has not been sent (R91), its request not out of patience, with no queued request of its slot
and clip and room in the wait queue to return to (R93). -/
structure WaitsToClaim (s : State) (e : SayEntry) : Prop where
  state : s.player.state = .settling
  waiting : s.player.intentSent = false
  current : s.player.current = some e
  patient : s.now < e.patience
  apart : ∀ x ∈ s.player.queue, x.slot ≠ e.slot ∨ x.clip ≠ e.clip
  room : s.player.queue.length < 8

/-- The player once such a claim has backed off (R93): IDLE, its request back in the queue. -/
def backedOff (p : Player) (e : SayEntry) : Player :=
  { p with
    state := .idle, current := none, intentSent := false, windowEnd := none, queue := insertSay e p.queue }

/-- A LOAD is to be handed over (R74, R75): the line ACTIVE or MUTE, with 10 ticks passed since the last announcement
and its demand or halted flag changed, or with 200 ticks passed. -/
def LoadDue (s : State) : Prop :=
  (s.line.state = .active ∨ s.line.state = .mute) ∧ ∃ a, s.share.lastAnnouncement = some a ∧
    ((a.time + 10 ≤ s.now ∧ (a.demand ≠ min 65535 ((s.share.ownDemand + 999) / 1000) ∨ a.halted ≠ s.halted)) ∨
      a.time + 200 ≤ s.now)

/-- The clip being played has had its time (R79, R95). -/
def ClipOver (s : State) : Prop :=
  ∃ e p, s.player.current = some e ∧ s.player.playStart = some p ∧
    p + ((s.clip? e.clip).elim 0 fun c => (c.length + 159) / 160) ≤ s.now

/-- The timer event is due now, by the rule that names its moment. -/
def IsDue (s : State) (c : Instr) : Prop :=
  let now := s.now
  match s.phase with
  | .maintenance =>
    match c with
    | .commitComplete => ∃ row t, s.port.operation = some (.commit row, t) ∧ t ≤ s.clockMs
    | .eraseComplete => ∃ op t, s.port.operation = some (op, t) ∧ (∀ row, op ≠ .commit row) ∧ t ≤ s.clockMs
    | _ => False
  | .running =>
    match c with
    | .latchExpiry i => ∃ a, s.inputs.inputs[i].latch = some a ∧ a + s.settings.inputs[i].hold ≤ now
    | .cooldownEnd n => expired s.engine.cooldowns[n] now
    | .stepDeadline k => ∃ i e sc r, s.engine.slots[k].run = some i ∧ i.wait = .delaying e ∧ e ≤ now ∧
        s.scene? i.scene = some sc ∧ sc.steps[i.stepIndex]? = some r
    | .awaitTimeout k => ∃ i subject e, s.engine.slots[k].run = some i ∧ i.wait = .awaiting subject (some e) ∧ e ≤ now
    | .quietTimerExpiry => expired s.inputs.quietTimer now
    | .idleTimerExpiry => expired s.inputs.idleTimer now
    | .fadeStep c => s.lamps[c].fading = true ∧ s.lamps[c].begun + s.lamps[c].stepsDone + 1 ≤ now
    | .announcementDue => LoadDue s
    | .admissionTimeout d =>
      ∃ e ∈ s.share.admissions, e.drive = d ∧ e.kind ≠ .segmentStart ∧ e.entered + 500 ≤ now
    | .voiceEntryExpiry n => ∃ v ∈ s.player.voices, v.station = n ∧ expired v.expiry now
    | .patienceExpiry k clip => ∃ e ∈ s.player.queue, e.slot = k ∧ e.clip = clip ∧ e.patience ≤ now
    | .windowEnd => s.player.state = .settling ∧ expired s.player.windowEnd now
    | .clipEnd => s.player.state = .playing ∧ ClipOver s
    | .fadeOutEnd =>
      s.player.state = .fadingOut ∧ ((∃ f, s.player.fadeOutStart = some f ∧ f + 20 ≤ now) ∨ ClipOver s)
    | .stillTimerExpiry d =>
      let r := s.drives[d]
      let tolerance := s.settings.drives[d].tolerance
      r.braking = true ∧ expired r.stillTimer now ∧ (r.state = .homing ∨
        (r.state = .moving ∧ r.position ≤ r.target + tolerance ∧ r.target ≤ r.position + tolerance))
    | .stallTimerExpiry d =>
      let r := s.drives[d]
      (((r.state = .homing ∨ r.state = .moving) ∧ r.braking = false) ∨ (r.state = .track ∧ s.track.running = true)) ∧
        expired r.stallTimer now
    | .haltBrakeEnd d => expired s.drives[d].brakeUntil now
    | .retryTimerExpiry => s.track.state = .askingAsked ∧ expired s.track.retryTimer now
    | .giveUpTimerExpiry => s.track.state = .askingAsked ∧ expired s.track.giveUpTimer now
    | .grantTimerExpiry => (s.track.state = .sending ∨ s.track.state = .receiving) ∧
        ∃ e, s.track.grantTimer = .expiring e ∧ e ≤ now
    | .settleEnd => s.track.state = .receiving ∧ ∃ e, s.track.settle = .expiring e ∧ e ≤ now
    | .peerAgeOut n => ∃ p ∈ s.line.peers, p.station = n ∧ p.lastHeard + 600 ≤ now
    | .muteTimerExpiry => s.line.state = .mute ∧ expired s.line.muteTimer now
    | .joiningTimerExpiry => expired s.line.joiningTimer now
    | _ => False
  | _ => False

/-- The running demand with a number of mW more lies within the allowance that a recomputation works out when the motor
demand is `motor` (R62, R64, R65). -/
abbrev fitsWith (s : State) (motor started watts : MilliWatt) : Prop :=
  started + watts ≤
    allowance s.line.state (s.lampDemand + motor) s.peerSum (milli s.settings.capacity) (milli s.settings.baseShare)

/-- A drive that has faulted (R114): off, unhomed, with no request and no requester. -/
def faultedDrive (r : Drive) : Drive :=
  { r with
    state := .faulted, homed := false, pending := none, requester := none, braking := false, stillTimer := none
    stallTimer := none, samples := [], blankingEnd := none, brakeUntil := none }

/-- A drive whose output has just begun to drive (R111, R112). -/
def drivingDrive (r : Drive) (c : DriveSettings) (s : State) : Drive :=
  { r with
    braking := false, stillTimer := none, stallTimer := some (s.now + c.stallTime), samples := []
    blankingEnd := some (s.clockMs + 50), brakeUntil := none }

/-- A drive whose output has just begun to brake (R107, R108); no blanking end is kept (DESIGN CHOICE, assumption 51). -/
def brakingDrive (r : Drive) (s : State) : Drive :=
  { r with
    braking := true, stillTimer := some (s.now + 5), stallTimer := none, samples := [], blankingEnd := none
    brakeUntil := none }

/-- Drive 3 once the segment has just been ordered to run (R112, R117): UP, with its blanking begun. -/
def runningSegment (s : State) : Drive :=
  { s.drives[(3 : Fin 4)] with
    up := true, samples := [], blankingEnd := some (s.clockMs + 50), brakeUntil := none }

/-- The track block once a handover has ended in a state (R125, R127, R128). -/
def endedTrack (r : Track) (state : TrackState) : Track :=
  { r with
    state := state, peer := none, running := false, grantTimer := .stopped, arriveSeen := false, departSeen := false
    settle := .stopped }

/-- The command of a received frame, by its kind. -/
def frameCommand (k : FrameKind) (f : Frame) : Instr :=
  match k with
  | .halt => .haltReceived f
  | .resume => .resumeReceived f
  | .talkIntent => .talkIntentReceived f
  | .talkBusy => .talkBusyReceived f
  | .talkEnd => .talkEndReceived f
  | .blockAsk => .blockAskReceived f
  | .blockGrant => .blockGrantReceived f
  | .blockHeld => .blockHeldReceived f
  | .blockRelease => .blockReleaseReceived f
  | .cue => .cueReceived f
  | .load => .loadReceived f

/-- How many answer bytes a maintenance command other than STATUS clocks out while BUSY; none for a command of another
kind (R162, R170). -/
def answerLength? : Instr → Option Nat
  | .identify => some 5
  | .read => some 1
  | .readNext => some 1
  | .faults => some 1
  | .setAddress _ => some 0
  | .load _ => some 0
  | .loadNext _ => some 0
  | .commit => some 0
  | .eraseSector => some 0
  | .eraseAllContent => some 0
  | .eraseAllEverything => some 0
  | .clearFaults => some 0
  | .exit _ => some 0
  | .unknownCommand _ => some 0
  | .eraseAllScopeRefused _ => some 0
  | _ => none

/-- The station at the start of its show, from a show memory with a valid configuration, the levels of its field inputs
and the fault records left by the restart, its RESTART record the last (R1, R25, R29, R40, R57, R77, R101, R118, R133,
R148, R149, R155, R156, R157). -/
structure StartsShow (m : List Host.Cell) (levels : Levels) (records : List FaultRecord) (t : State) : Prop where
  settled : Settled t
  phase : t.phase = .running
  clock : t.clockMs = 0
  memory : t.memory = m
  settings : t.settings = readSettings m
  scenes : ∀ n : Fin 64, t.scene? n = (readScene m n).scene?
  slots : ∀ k : Fin 4, t.engine.slots[k] = ⟨none, 0⟩
  channelOwners : ∀ c : Fin 12, t.engine.channelOwners[c] = none
  driveOwners : ∀ d : Fin 4, t.engine.driveOwners[d] = none
  cooldowns : ∀ n : Fin 64, t.engine.cooldowns[n] = none
  trackRequester : t.engine.trackRequester = none
  inputs : ∀ i : Fin 8,
    let active := decide (t.settings.inputs[i].kind ≠ .unused ∧
      levels.codes[i].toNat * 1000 / 1023 < t.settings.inputs[i].threshold)
    t.inputs.inputs[i] = ⟨active, active, 0, none, none⟩
  occupancy : t.inputs.occupancy = 0 ∧ t.inputs.bay = .empty
  bayTimers : t.inputs.quietTimer = none ∧ t.inputs.idleTimer = some (100 * t.settings.idleSeconds)
  lamps : ∀ c : Fin 12, t.lamps[c] = Lamp.dark
  share : t.share = Share.atRestart
  player : t.player.state = .idle ∧ t.player.current = none ∧ t.player.queue = [] ∧ t.player.audioOutput = 0
  playerTimes : t.player.intentSent = false ∧ t.player.windowEnd = none ∧ t.player.playStart = none ∧
    t.player.fadeOutStart = none
  voices : t.player.voices = voicesOf t.settings.hearing
  clips : ∀ n : Fin 256, t.player.clips[n] = readClip m n
  drives : ∀ d : Fin 4, t.drives[d] =
    { Drive.atRestart with
      state := if t.settings.trackMode = true ∧ d = 3 then .track else .unhomed
      homeClosed := levels.homeClosed[d], endClosed := levels.endClosed[d]
      encA := levels.encA[d], encB := levels.encB[d] }
  track : t.track = { Track.atRestart with
    state := if t.settings.trackMode = true ∧ (t.beamBroken .arrive = true ∨ t.beamBroken .depart = true)
      then .holding else .empty }
  line : t.line = { Line.off with state := .joining, joiningTimer := some 50 }
  halt : t.halt = none
  port : t.port = Port.atRestart
  faults : t.faults.records =
    ((List.finRange 64).filter fun n => decide (readScene m n = .bad)).foldl
      (fun rs n => mergeFault rs .sceneBad (BitVec.ofNat 8 n.val) 0) records
  faultOutput : t.faults.faultOutput = true ↔
    ∃ r ∈ t.faults.records, (readSettings m).faultMask.getLsbD (r.kind.code - 1) = true
  attendOutput : t.faults.attendOutput = true ↔
    ∃ r ∈ t.faults.records, (readSettings m).attendMask.getLsbD (r.kind.code - 1) = true

end Sys2Proof.Machine
end

