-- ==== Sys2Proof/WellFormed.lean ====
section
/-! DEFINITION. Which commands are well formed: the events that a row of spec/opcode_table.json can stand for. -/

namespace Sys2Proof

/-- Whether a frame is one that a receiver can have clocked in as kind `k`: the kind's code in its header, and as
many payload bytes as its header says. CRC, class, length and source are R141's checks, made by the command. -/
def frameOfKind (k : FrameKind) (f : Frame) : Bool :=
  f.kindCode == k.code && f.payload.length == f.length

/-- Whether a number can be a station's number (00_scope.md, Terms). -/
def stationNumber (n : Nat) : Bool := decide (1 ≤ n) && decide (n ≤ 62)

/-- Whether the bytes clocked in so far are not yet a complete record (R162). -/
def incompleteRecord (bytes : List Byte) : Bool :=
  match bytes with
  | [] => true
  | code :: _ => decide (bytes.length < recordLength code)

/-- The well-formed commands. -/
def WellFormed : Instr → Bool
  | .voiceEntryExpiry n => stationNumber n
  | .peerAgeOut n => stationNumber n
  | .haltReceived f => frameOfKind .halt f
  | .resumeReceived f => frameOfKind .resume f
  | .talkIntentReceived f => frameOfKind .talkIntent f
  | .talkBusyReceived f => frameOfKind .talkBusy f
  | .talkEndReceived f => frameOfKind .talkEnd f
  | .blockAskReceived f => frameOfKind .blockAsk f
  | .blockGrantReceived f => frameOfKind .blockGrant f
  | .blockHeldReceived f => frameOfKind .blockHeld f
  | .blockReleaseReceived f => frameOfKind .blockRelease f
  | .cueReceived f => frameOfKind .cue f
  | .loadReceived f => frameOfKind .load f
  | .transactionDiscard bytes => incompleteRecord bytes
  | .unknownCommand code => !knownCode code
  | .eraseAllScopeRefused scope => scope != 0x01#8 && scope != 0x02#8
  | _ => true

end Sys2Proof
end

