-- ==== Sys2Proof/Certificates/Slice0/Obligations.lean ====
section
/-! DEFINITION. The statements for the provers, family by family in the order of spec/opcode_table.json. Each says in its
docstring which rules it formalises; an equation `exec c s = .next …` says at once that the command completes, what it
changes, and that it changes nothing else. -/

open Sys2Proof Sys2Proof.Machine

/-! ## The station as a whole -/

/-- The step takes the command at the front of the queue and carries it out on the station with the rest. -/
def Obligations.StepRunsFrontCommand : Prop :=
  ∀ (c : Instr) (rest : List Instr) (s : State),
    step { s with pending := c :: rest } = exec c { s with pending := rest }

/-- With no command waiting, one of the station's own events whose moment has come (`IsDue`, rule by rule) is queued;
with none due, the time of one sample passes, 1/16 ms. Each full ms raises the clock and lets every dimmer take up its
output level (R50). A clip being played sends its next sample, at the gain of the present time: ducked while a neighbour
talks, and scaled by 1/20 less each tick of a fade-out (R80, R97, R98); with none left the output stays. Nothing else
changes. Time stands in power-off and in reset. The model's choice: the queueing and the pace (assumptions 2, 24), the
output after the last sample (assumption 39), and that time stands (assumption 29); that a dimmer takes up its level at
the next ms is read by inference (assumption 38). -/
def Obligations.IdleStepQueuesDueEventOrPassesTime : Prop :=
  ∀ s : State, s.pending = [] →
    ((∃ c, IsDue s c) → ∃ e, IsDue s e ∧ ∃ n, step s = .next { s with pending := [e], draws := n }) ∧
    (s.phase = .powerOff ∨ s.phase = .heldInReset → step s = .next s) ∧
    ((∀ c, ¬IsDue s c) → s.phase ≠ .powerOff → s.phase ≠ .heldInReset →
      ∃ t, step s = .next t ∧ t.sampleClock = s.sampleClock + 1 ∧
        t.clockMs = (if s.sampleClock = 15 then s.clockMs + 1 else s.clockMs) ∧
        (∀ c : Fin 12, t.lamps[c] =
          if s.sampleClock = 15 then { s.lamps[c] with dimmer := s.lamps[c].output } else s.lamps[c]) ∧
        (∀ e p clip, s.player.current = some e → s.player.playStart = some p → s.clip? e.clip = some clip →
          s.player.samplesSent < clip.length →
          let base := clip.gain * s.settings.bayVolume / 1000
          let gain :=
            if s.player.voices.any (fun v => v.talking) then base * s.settings.duckLevel / 1000 else base
          let value (g : Nat) : Int :=
            ((Memory.read s.memory (clip.start + s.player.samplesSent)).toInt * 16 * (g : Int)).tdiv 1000
          t.player.samplesSent = s.player.samplesSent + 1 ∧
          (s.player.state = .playing → t.player.audioOutput = value gain) ∧
          ∀ f, s.player.state = .fadingOut → s.player.fadeOutStart = some f →
            t.player.audioOutput = value (gain * (20 - (t.clockMs / 10 - f)) / 20)) ∧
        ((s.player.playStart = none ∨ ∀ e clip, s.player.current = some e → s.clip? e.clip = some clip →
            clip.length ≤ s.player.samplesSent) → t.player = s.player) ∧
        t = { s with
          clockMs := t.clockMs, sampleClock := t.sampleClock, lamps := t.lamps
          player.audioOutput := t.player.audioOutput, player.samplesSent := t.player.samplesSent })

/-- R156, R158, R161: a restart that does not enter the show. POWER_ON empties the fault list; RESET_RELEASE and EXIT
keep it. With MAINT_SEL low the station is in maintenance, with a RESTART record and every other value at rest; with
an invalid configuration it is UNCONFIGURED, with a CONFIG_INVALID record behind the RESTART record. The values at
rest that no chapter gives are the model's choice, as is what a release of RESET with no supply does (assumptions 8,
33). -/
def Obligations.RestartWithoutAShow : Prop :=
  ∀ (s : State) (levels : Levels),
    let m := s.cutOperation.memory
    let rest (phase : Phase) (records : List FaultRecord) : State :=
      { State.reset with
        pending := s.pending, draws := s.cutOperation.draws, memory := m, phase := phase
        faults := ⟨records, false, false⟩ }
    exec (.powerOn true levels) s = .next (rest .maintenance [⟨.restart, 0, 0, 0, 0⟩]) ∧
    (s.phase ≠ .powerOff →
      exec (.resetRelease true levels) s =
        .next (rest .maintenance (mergeFault s.faults.records .restart 1 0))) ∧
    ∀ cause, configCheck m = some cause →
      exec (.powerOn false levels) s =
        .next (rest .unconfigured
          [⟨.restart, 0, 0, 0, 0⟩, ⟨.configInvalid, if cause = .format then 0 else 1, 0, 0, 0⟩]) ∧
      (s.phase ≠ .powerOff →
        exec (.resetRelease false levels) s =
          .next (rest .unconfigured
            (mergeFault (mergeFault s.faults.records .restart 1 0) .configInvalid
              (if cause = .format then 0 else 1) 0))) ∧
      (PortFree s →
        exec (.exit levels) s =
          .next (rest .unconfigured
            (mergeFault (mergeFault s.faults.records .restart 2 0) .configInvalid
              (if cause = .format then 0 else 1) 0)))

/-- R1, R25, R29, R40, R57, R77, R101, R118, R133, R145, R148, R149, R155, R156, R157: with a valid configuration, a
restart of each of the three causes starts the show with every block at its restart values. The fault list holds the
RESTART record with its cause, then a SCENE_BAD record for each bad scene record in ascending scene number; POWER_ON
empties it first. What a RESET_RELEASE does with RESET not held, the order of the SCENE_BAD records, and the start at 0
of a field that no chapter gives a value, are the model's choice (assumptions 8, 27, 33). -/
def Obligations.ValidConfigurationStartsShow : Prop :=
  ∀ (s : State) (levels : Levels), configCheck s.cutOperation.memory = none →
    let m := s.cutOperation.memory
    (∃ t, exec (.powerOn false levels) s = .next t ∧ t.pending = s.pending ∧
      StartsShow m levels [⟨.restart, 0, 0, 0, 0⟩] t) ∧
    (s.phase ≠ .powerOff →
      ∃ t, exec (.resetRelease false levels) s = .next t ∧ t.pending = s.pending ∧
        StartsShow m levels (mergeFault s.faults.records .restart 1 0) t) ∧
    (PortFree s →
      ∃ t, exec (.exit levels) s = .next t ∧ t.pending = s.pending ∧
        StartsShow m levels (mergeFault s.faults.records .restart 2 0) t)

/-- R156, R168: a loss of the supply and an assertion of RESET leave the show memory and the fault list alone, with
every output off; a rise of the supply with RESET low leaves the show memory alone. With no supply, RESET has no
effect. What RESET does with no supply, and the values at rest that no chapter gives, are the model's choice
(assumptions 8, 33). -/
def Obligations.SupplyAndResetBlankTheStation : Prop :=
  ∀ (s : State) (low : Bool) (levels : Levels),
    let blank (phase : Phase) (records : List FaultRecord) : State :=
      { State.reset with
        pending := s.pending, draws := s.draws, memory := s.memory, phase := phase
        faults := ⟨records, false, false⟩ }
    (s.phase = .powerOff → exec .resetAssert s = .next s ∧ exec (.resetRelease low levels) s = .next s) ∧
    (s.port.operation = none →
      exec .powerLoss s = .next (blank .powerOff s.faults.records) ∧
      (s.phase ≠ .powerOff → exec .resetAssert s = .next (blank .heldInReset s.faults.records)) ∧
      exec .supplyRiseWithResetLow s = .next (blank .heldInReset []))

/-- R168: an operation cut short by a loss of power or by RESET. Each byte of its target holds its old value, or the
AND with its latch byte for a COMMIT and 0xFF for an erase; every other byte is unchanged, and the pointer, the latch
and the flags are cleared. -/
def Obligations.CutOperationSettlesEachByte : Prop :=
  ∀ (s : State) (op : Operation) (t : Nat) (c : Instr), Memory.wf s.memory = true →
    s.port.operation = some (op, t) →
    c = .powerLoss ∨ (c = .resetAssert ∧ s.phase ≠ .powerOff) →
    ∃ u, exec c s = .next u ∧ u.port = Port.atRestart ∧
      (∀ a, a < op.range.1 ∨ op.range.2 ≤ a → Memory.read u.memory a = Memory.read s.memory a) ∧
      match op with
      | .commit row =>
        ∀ i : Fin 256, Memory.read u.memory (row + i.val) = Memory.read s.memory (row + i.val) ∨
          Memory.read u.memory (row + i.val) = Memory.read s.memory (row + i.val) &&& s.port.latch[i]
      | _ =>
        ∀ a, op.range.1 ≤ a → a < op.range.2 →
          Memory.read u.memory a = Memory.read s.memory a ∨ Memory.read u.memory a = 0xFF#8

/-! ## The maintenance port -/

/-- R164, R165, R167: SET_ADDRESS sets the 23-bit pointer; READ answers the byte at the pointer, which reads 0x00
outside the configuration sector while protection is active; LOAD puts its byte into the row latch at the position of
the pointer's low 8 bits. READ_NEXT and LOAD_NEXT move the pointer on as well, from 0x7FFFFF to 0x000000. -/
def Obligations.ReadsAndLoadsFollowPointer : Prop :=
  ∀ (s : State) (address : BitVec 24) (data : Byte), PortFree s →
    let a := s.port.pointer.toNat
    let b := if Memory.read s.memory 0x004 ≠ 0xFF#8 ∧ 0x1000 ≤ a then 0x00#8 else Memory.read s.memory a
    ∃ (given next : BitVec 23) (latch : Vector Byte 256),
      given.toNat = address.toNat % 0x800000 ∧ next.toNat = (a + 1) % 0x800000 ∧
      (∀ i : Fin 256, latch[i] = if i.val = a % 256 then data else s.port.latch[i]) ∧
      exec (.setAddress address) s = .next { s with port.pointer := given, port.answer := [] } ∧
      exec .read s = .next { s with port.answer := [b] } ∧
      exec .readNext s = .next { s with port.pointer := next, port.answer := [b] } ∧
      exec (.load data) s = .next { s with port.latch := latch, port.answer := [] } ∧
      exec (.loadNext data) s = .next { s with port.latch := latch, port.pointer := next, port.answer := [] }

/-- R165, R167: COMMIT starts programming the row that holds the pointer, for 3 ms; protection refuses it. At its end
each byte of the row holds the AND of its old value and its latch byte, no other byte has changed, the latch is 0xFF
again, BUSY is clear and COMMIT_DONE set. The model's choice: the end reckoned in whole ms of the clock (assumption 50),
and the effect of an end taken after its time (assumption 12). -/
def Obligations.CommitProgramsRow : Prop :=
  ∀ s : State,
    (PortFree s →
      (Memory.read s.memory 0x004 = 0xFF#8 →
        exec .commit s =
          .next { s with
            port.operation := some (.commit (s.port.pointer.toNat / 256 * 256), s.clockMs + 3), port.answer := [] }) ∧
      (Memory.read s.memory 0x004 ≠ 0xFF#8 →
        exec .commit s = .next { s with port.refused := true, port.answer := [] })) ∧
    ∀ row t, Memory.wf s.memory = true → s.phase = .maintenance → s.port.operation = some (.commit row, t) →
      t ≤ s.clockMs →
      ∃ m : List Host.Cell,
        exec .commitComplete s =
          .next { s with
            memory := m, port.latch := Vector.replicate 256 0xFF#8, port.operation := none
            port.commitDone := true } ∧
        (∀ i : Fin 256,
          Memory.read m (row + i.val) = Memory.read s.memory (row + i.val) &&& s.port.latch[i]) ∧
        ∀ a, a < row ∨ row + 256 ≤ a → Memory.read m a = Memory.read s.memory a

/-- R166, R167: ERASE_SECTOR and ERASE_ALL of scope CONTENT start their erase unless protection is active, and
ERASE_ALL of scope EVERYTHING starts whatever the protection. At the end every byte of the range reads 0xFF, no other
byte has changed, BUSY is clear and ERASE_DONE set. The model's choice: the end reckoned in whole ms of the clock
(assumption 50), and the effect of an end taken after its time (assumption 12). -/
def Obligations.EraseRestoresErasedBytes : Prop :=
  ∀ s : State,
    (PortFree s →
      (Memory.read s.memory 0x004 = 0xFF#8 →
        exec .eraseSector s =
          .next { s with
            port.operation := some (.eraseSector (s.port.pointer.toNat / 4096 * 4096), s.clockMs + 50)
            port.answer := [] } ∧
        exec .eraseAllContent s =
          .next { s with port.operation := some (.eraseContent, s.clockMs + 2000), port.answer := [] }) ∧
      (Memory.read s.memory 0x004 ≠ 0xFF#8 →
        exec .eraseSector s = .next { s with port.refused := true, port.answer := [] } ∧
        exec .eraseAllContent s = .next { s with port.refused := true, port.answer := [] }) ∧
      exec .eraseAllEverything s =
        .next { s with port.operation := some (.eraseEverything, s.clockMs + 2000), port.answer := [] }) ∧
    ∀ op t, s.phase = .maintenance → s.port.operation = some (op, t) → (∀ row, op ≠ .commit row) → t ≤ s.clockMs →
      ∃ m : List Host.Cell,
        exec .eraseComplete s =
          .next { s with memory := m, port.operation := none, port.eraseDone := true } ∧
        let range : Nat × Nat :=
          match op with
          | .eraseSector sector => (sector, sector + 4096)
          | .eraseContent => (0x001000, 0x800000)
          | _ => (0, 0x800000)
        (∀ a, range.1 ≤ a → a < range.2 → Memory.read m a = 0xFF#8) ∧
        ∀ a, a < range.1 ∨ range.2 ≤ a → Memory.read m a = Memory.read s.memory a

/-- R163, R164, R170: IDENTIFY answers the five identity bytes. STATUS, taken while BUSY too, answers the five flags
as they stand in bits 0 to 4 and clears all but BUSY. FAULTS answers the number of records and then each, oldest first,
in 11 bytes: kind, detail, first time, last time and repeat count. CLEAR_FAULTS empties the list. The output line reads
1 while a record is clocked in, then the answer, and 0xFF beyond it. -/
def Obligations.PortAnswersAndClearsFaults : Prop :=
  ∀ s : State,
    (PortFree s → exec .identify s = .next { s with port.answer := [0x3E#8, 0x71#8, 0x04#8, 0x12#8, 0x01#8] }) ∧
    (s.phase = .maintenance → ∃ b : Byte,
      exec .status s =
        .next { s with
          port.answer := [b], port.commitDone := false, port.eraseDone := false, port.late := false
          port.refused := false } ∧
      b.getLsbD 0 = s.port.operation.isSome ∧ b.getLsbD 1 = s.port.commitDone ∧ b.getLsbD 2 = s.port.eraseDone ∧
      b.getLsbD 3 = s.port.late ∧ b.getLsbD 4 = s.port.refused ∧ b.getLsbD 5 = false ∧ b.getLsbD 6 = false ∧
      b.getLsbD 7 = false) ∧
    (PortFree s →
      (∃ bytes : List Byte,
        exec .faults s = .next { s with port.answer := bytes } ∧
        bytes.length = 1 + 11 * s.faults.records.length ∧
        bytes.head? = some (BitVec.ofNat 8 s.faults.records.length) ∧
        ∀ (i : Nat) (r : FaultRecord), s.faults.records[i]? = some r →
          (bytes.drop (1 + 11 * i)).take 11 =
            [BitVec.ofNat 8 r.kind.code, r.detail, r.first.extractLsb' 24 8, r.first.extractLsb' 16 8,
              r.first.extractLsb' 8 8, r.first.extractLsb' 0 8, r.last.extractLsb' 24 8, r.last.extractLsb' 16 8,
              r.last.extractLsb' 8 8, r.last.extractLsb' 0 8, BitVec.ofNat 8 r.count]) ∧
      exec .clearFaults s = .next { s with faults := ⟨[], false, false⟩, port.answer := [] }) ∧
    ∀ record i : Nat,
      (i < record → s.port.outputByte record i = 0xFF#8) ∧
      (∀ b, s.port.answer[i]? = some b → s.port.outputByte record (record + i) = b) ∧
      (s.port.answer.length ≤ i → s.port.outputByte record (record + i) = 0xFF#8)

/-- R161, R162, R163: an incomplete record has no effect and sets no flag; a record of an unknown code, or an ERASE_ALL
of another scope, is not carried out and sets REFUSED. While BUSY a command other than STATUS sets LATE and does nothing
else, its answer bytes reading 0x00; outside maintenance no command is taken. The one answer byte of a FAULTS is the
model's choice (assumption 26). That an unrecognised record sets LATE alone is read by inference (assumption 20). -/
def Obligations.UnrecognisedAndLateRecords : Prop :=
  (∀ (s : State) (bytes : List Byte) (code scope : Byte),
    exec (.transactionDiscard bytes) s = .next s ∧
    (PortFree s →
      exec (.unknownCommand code) s = .next { s with port.refused := true, port.answer := [] } ∧
      exec (.eraseAllScopeRefused scope) s = .next { s with port.refused := true, port.answer := [] })) ∧
  ∀ (c : Instr) (n : Nat) (s : State), answerLength? c = some n →
    (s.phase = .maintenance → s.port.operation ≠ none →
      exec c s = .next { s with port.late := true, port.answer := List.replicate n 0x00#8 }) ∧
    (s.phase ≠ .maintenance → exec c s = .next s ∧ exec .status s = .next s)

/-- R166, R167, R168: while protection is active and no refused operation is in progress, no step changes the show memory
or starts an operation that may, but for an ERASE_ALL of scope EVERYTHING. With no operation in progress, no step of a
station that runs its show changes it, protected or not. -/
def Obligations.ProtectedMemoryIsKept : Prop :=
  ∀ s t : State, step s = .next t →
    (s.phase = .running → s.port.operation = none → t.memory = s.memory) ∧
    (Memory.read s.memory 0x004 ≠ 0xFF#8 →
      (∀ op e, s.port.operation = some (op, e) → op = .eraseEverything) →
      (∀ op e, t.port.operation = some (op, e) → op = .eraseEverything) ∧
      (t.memory = s.memory ∨ (s.port.operation ≠ none ∧ ∀ a, Memory.read t.memory a = Memory.read s.memory a ∨
        Memory.read t.memory a = 0xFF#8)))

/-! ## The fault list -/

/-- R153, R155: a fault of the newest record's kind and detail raises its repeat count, up to 255, and sets its last
time; any other fault is appended, the oldest of eight records dropped first. FAULT and ATTEND are asserted exactly
while a record of their mask is in the list. -/
def Obligations.FaultListMergesAndKeepsEight : Prop :=
  ∀ (s : State) (kind : FaultKind) (detail : Nat), s.phase = .running → s.faults.records.length ≤ 8 →
    let t := s.recordFault kind detail
    let new : FaultRecord := ⟨kind, BitVec.ofNat 8 detail, s.showTime, s.showTime, 0⟩
    t = { s with faults := t.faults } ∧ t.faults.records.length ≤ 8 ∧
    (∀ older r, s.faults.records = older ++ [r] → r.kind = kind → r.detail = new.detail →
      t.faults.records = older ++ [{ r with last := s.showTime, count := min 255 (r.count + 1) }]) ∧
    ((∀ r, s.faults.records.getLast? = some r → r.kind ≠ kind ∨ r.detail ≠ new.detail) →
      t.faults.records = s.faults.records.drop (s.faults.records.length + 1 - 8) ++ [new]) ∧
    (t.faults.faultOutput = true ↔
      ∃ r ∈ t.faults.records, s.settings.faultMask.getLsbD (r.kind.code - 1) = true) ∧
    (t.faults.attendOutput = true ↔
      ∃ r ∈ t.faults.records, s.settings.attendMask.getLsbD (r.kind.code - 1) = true)

/-! ## Visitor inputs and bay occupancy -/

/-- R26, R27, R28: a sample below the threshold makes the comparator active, one above the release level inactive, and
one between leaves it. A comparator that agrees with the debounced state clears the count; one that disagrees for 2
samples of a BUTTON and 1 of another kind changes the debounced state. A release of an input other than ARRIVE and
DEPART does nothing more (R30). -/
def Obligations.SampleMovesComparatorAndDebounce : Prop :=
  ∀ (s : State) (i : Fin 8) (code : BitVec 10), Ready s → s.settings.inputs[i].kind ≠ .unused →
    let c := s.settings.inputs[i]
    let r := s.inputs.inputs[i]
    let level := code.toNat * 1000 / 1023
    let above := if c.threshold + c.hysteresis ≥ 1000 then 999 else c.threshold + c.hysteresis
    let comparator := if level < c.threshold then true else if above < level then false else r.comparator
    let needed := if c.kind = .button then 2 else 1
    (comparator = r.debounced →
      exec (.inputSample i code) s = .next (s.setInput i { r with comparator := comparator, debounceCount := 0 })) ∧
    (comparator ≠ r.debounced → r.debounceCount + 1 < needed →
      exec (.inputSample i code) s =
        .next (s.setInput i { r with comparator := comparator, debounceCount := r.debounceCount + 1 })) ∧
    (comparator = false → r.debounced = true → needed ≤ r.debounceCount + 1 → c.kind ≠ .arrive → c.kind ≠ .depart →
      exec (.inputSample i code) s =
        .next (s.setInput i { r with comparator := false, debounced := false, debounceCount := 0 }))

/-- R4, R5, R7, R30, R31, R36: an activation of a BUTTON or BEAM sets its last activation time and its latch, and moves
the quiet timer on while it runs. With no scene started, the latch stays, but is gone at the end of the pass when the
hold time is 0; it is kept for a scene bound to the input that is active under HOLD, left by one that is active under
IGNORE, and cleared while HALTED; that it stays while HALTED with no scene bound is the model's choice (assumption 52). A
bound scene that the tests let start is started in the lowest FREE slot, and
consumes the latch. -/
def Obligations.PressSetsLatch : Prop :=
  ∀ (s : State) (i : Fin 8) (code : BitVec 10), Ready s → Activates s i code →
    s.settings.inputs[i].kind = .button ∨ s.settings.inputs[i].kind = .beam →
    let unbound : Prop := s.considerations (.input i) = []
    let bound (p : Fin 64 → Scene → Prop) : Prop := ∃ n sc, s.considerations (.input i) = [.consider (.input i) n] ∧
      s.scene? n = some sc ∧ p n sc
    let active (n : Fin 64) : Prop := ∃ (k : Fin 4) (run : Running), s.engine.slots[k].run = some run ∧ run.scene = n
    let pressed (latch : Option Tick) (engine : SceneEngine) : Prop :=
      ∃ t, exec (.inputSample i code) s = .next t ∧
        t.inputs.inputs[i].debounced = true ∧ t.inputs.inputs[i].lastActivation = some s.now ∧
        t.inputs.inputs[i].latch = latch ∧
        (∀ j : Fin 8, j ≠ i → t.inputs.inputs[j] = s.inputs.inputs[j]) ∧
        t.inputs.quietTimer = s.inputs.quietTimer.map (fun _ => s.now + 100 * s.settings.quietSeconds) ∧
        t = { s with
          inputs.inputs := t.inputs.inputs, inputs.quietTimer := t.inputs.quietTimer, engine := engine }
    (unbound ∨ (s.halt = none ∧ bound fun n sc => active n ∧ sc.policy ≠ .restart) →
      pressed (if s.settings.inputs[i].hold = 0 then none else some s.now) s.engine) ∧
    (s.halt ≠ none → (bound fun _ _ => True) → pressed none s.engine) ∧
    ∀ n sc first k, s.considerations (.input i) = [.consider (.input i) n] → Starts s n sc first k →
      pressed none (startedIn s n sc first k).engine

/-- R4, R7, R34, R35, R36, R37: ENTRY raises the count up to 255 and EXIT lowers it down to 0, the bay state and its two
timers following; each activation sets the input's last activation time. The rise from 0 raises ENTER, and the fall to 0
EMPTY: with no scene bound nothing else changes, and a bound scene that the tests let start is started, ENTER finding a
visitor in the bay and EMPTY none. -/
def Obligations.OccupancyFollowsEntriesAndExits : Prop :=
  ∀ (s : State) (i : Fin 8) (code : BitVec 10), Ready s → Activates s i code → BayAgrees s →
    let n := s.inputs.occupancy
    let quiet := some (s.now + 100 * s.settings.quietSeconds)
    let u := activated s i code
    let occupied (count : Nat) : State :=
      { u with
        inputs.occupancy := count, inputs.bay := .occupied, inputs.quietTimer := quiet, inputs.idleTimer := none }
    let emptied : State :=
      { u with
        inputs.occupancy := 0, inputs.bay := .empty, inputs.quietTimer := none
        inputs.idleTimer := some (s.now + 100 * s.settings.idleSeconds) }
    (s.settings.inputs[i].kind = .entry →
      ((n = 0 → s.considerations .enter = []) → exec (.inputSample i code) s = .next (occupied (min 255 (n + 1)))) ∧
      ∀ m sc first k, n = 0 → s.considerations .enter = [.consider .enter m] → Starts (occupied 1) m sc first k →
        exec (.inputSample i code) s = .next (startedIn (occupied 1) m sc first k)) ∧
    (s.settings.inputs[i].kind = .exit →
      (n = 0 → exec (.inputSample i code) s = .next { u with inputs.quietTimer := none }) ∧
      (n = 1 → s.considerations .empty = [] → exec (.inputSample i code) s = .next emptied) ∧
      (2 ≤ n → exec (.inputSample i code) s = .next (occupied (n - 1))) ∧
      ∀ m sc first k, n = 1 → s.considerations .empty = [.consider .empty m] → Starts emptied m sc first k →
        exec (.inputSample i code) s = .next (startedIn emptied m sc first k))

/-- R30, R32, R131, R132, R150, R151: a STOP activation while RUNNING halts the station with reason STOP_INPUT, a HALTED
record and a HALT frame, and while HALTED it hands over another HALT frame. A RESUME activation while HALTED with no STOP
input held ends the halt and hands over a RESUME frame; with one held it is answered with a HALT frame. While RUNNING it
clears a FAULTED track block, to HOLDING when a beam of the track is broken and to EMPTY otherwise, and has no other
effect. With the track FAULTED while HALTED the order of the two is a free value (assumption 6). -/
def Obligations.StopAndResumeInputsAct : Prop :=
  ∀ (s : State) (i : Fin 8) (code : BitVec 10), Ready s → Activates s i code →
    let u := activated s i code
    let sent (body : FrameBody) : State := { u with line.queue := insertTx ⟨body, s.now, false, 0⟩ s.line.queue }
    (s.settings.inputs[i].kind = .stop → s.line.queue.length < 8 →
      (s.halt ≠ none → exec (.inputSample i code) s = .next (sent (.halt .stopInput))) ∧
      (s.halt = none → SegmentSafe s →
        ∃ t, exec (.inputSample i code) s = .next t ∧ t.halt = some .stopInput ∧ HaltSafe t ∧
          (∃ x ∈ t.faults.records, x.kind = .halted ∧ x.detail = 0) ∧
          (∃ x ∈ t.line.queue, x.body = .halt .stopInput) ∧ t.memory = s.memory)) ∧
    (s.settings.inputs[i].kind = .resume →
      (s.halt = none → s.track.state ≠ .faulted → exec (.inputSample i code) s = .next u) ∧
      (s.halt = none → s.track.state = .faulted →
        exec (.inputSample i code) s =
          .next { u with
            track :=
              { s.track with
                state := if s.beamBroken .arrive = true ∨ s.beamBroken .depart = true then .holding else .empty
                peer := none, arriveSeen := false, departSeen := false, grantTimer := .stopped, retryTimer := none
                giveUpTimer := none, settle := .stopped } }) ∧
      (s.halt ≠ none → s.track.state ≠ .faulted → s.line.queue.length < 8 →
        (s.stopLevel = true → exec (.inputSample i code) s = .next (sent (.halt .stopInput))) ∧
        (s.stopLevel = false → s.inHandover = false →
          ∃ t, exec (.inputSample i code) s = .next t ∧ t.halt = none ∧ (∃ x ∈ t.line.queue, x.body = .resume) ∧
            t.track = s.track ∧ t.engine = s.engine ∧ t.player = s.player ∧ t.drives = s.drives ∧
            t.lamps = s.lamps)))

/-- R30, R33, R125, R127, R129, R130: with track mode on, a broken DEPART beam is noted while SENDING and ends the
handover in HOLDING while RECEIVING; a broken ARRIVE beam is noted while RECEIVING; either beam broken makes an EMPTY
block HOLDING; and in every other state a broken beam has no effect. The DEPART beam clear behind the carriage completes
the send, with BLOCK_RELEASE(DONE) and the block EMPTY. The ARRIVE beam clear behind it stops the grant timer and starts
the settle run, which a halt holds frozen at its full length, or ends the handover at once when the run is 0. Any other
clear beam has no effect. That a run of 0 ends the handover while HALTED too is the model's choice (assumption 48). -/
def Obligations.BeamsMoveTrackBlock : Prop :=
  ∀ (s : State) (i : Fin 8) (code : BitVec 10) (side : InputKind), Ready s → side = .arrive ∨ side = .depart →
    s.settings.inputs[i].kind = side →
    let state := s.track.state
    let ends (state' : TrackState) (t : State) : Prop :=
      exec (.inputSample i code) s = .next t ∧ t.track = endedTrack s.track state' ∧
        t.share.motorDemand = t.motorDemand ∧ t.engine.trackRequester = none ∧ t.player = s.player
    (Activates s i code →
      let u := activated s i code
      (s.settings.trackMode = false → exec (.inputSample i code) s = .next u) ∧
      (s.settings.trackMode = true →
        (state = .sending → side = .depart →
          exec (.inputSample i code) s = .next { u with track.departSeen := true }) ∧
        (state = .receiving → side = .arrive →
          exec (.inputSample i code) s = .next { u with track.arriveSeen := true }) ∧
        (state = .receiving → side = .depart → NobodyAwaits s .track → NothingElseWaits s 3 → ∃ t, ends .holding t) ∧
        (state = .empty → exec (.inputSample i code) s = .next { u with track.state := .holding }) ∧
        ((state = .sending ∧ side = .arrive) ∨ (state ≠ .sending ∧ state ≠ .receiving ∧ state ≠ .empty) →
          exec (.inputSample i code) s = .next u))) ∧
    (Releases s i code →
      let u := sampled s i code
      let left : Prop := s.settings.trackMode = true ∧ state = .sending ∧ side = .depart ∧ s.track.departSeen = true
      let arrived : Prop := s.settings.trackMode = true ∧ state = .receiving ∧ side = .arrive ∧ s.track.arriveSeen = true
      (left → NobodyAwaits s .track → NothingElseWaits s 3 → s.line.queue.length < 8 →
        ∃ t, ends .empty t ∧ ∃ x ∈ t.line.queue, x.body = .blockRelease (s.track.peer.getD 0) .done) ∧
      (arrived → s.settings.settleRun ≠ 0 →
        exec (.inputSample i code) s =
          .next { u with
            track.grantTimer := .stopped
            track.settle :=
              if s.halt = none then .expiring (s.now + s.settings.settleRun) else .frozen s.settings.settleRun }) ∧
      (arrived → s.settings.settleRun = 0 → NobodyAwaits s .track → NothingElseWaits s 3 → ∃ t, ends .holding t) ∧
      (¬left → ¬arrived → exec (.inputSample i code) s = .next u))

/-- R31, R36, R37, R51, R52: a latch that has reached its hold time is removed; the quiet-time reset takes the count to 0
and starts the idle timer; the idle time passed, the bay is IDLE, and while HALTED no lamp is dimmed for it. While
RUNNING every used channel with no owner then starts a fade of 300 ticks to its idle level, with no requester, and no
other channel is touched but for its output level. Taken after its time, the event has the same effect by the model's
choice (assumption 12). -/
def Obligations.InputTimersExpire : Prop :=
  ∀ (s : State) (i : Fin 8) (e : Tick), Ready s → e ≤ s.now →
    (∀ at_, s.inputs.inputs[i].latch = some at_ → e = at_ + s.settings.inputs[i].hold →
      exec (.latchExpiry i) s = .next (s.setInput i { s.inputs.inputs[i] with latch := none })) ∧
    (s.inputs.quietTimer = some e → s.considerations .empty = [] →
      exec .quietTimerExpiry s =
        .next { s with
          inputs.occupancy := 0, inputs.bay := .empty, inputs.quietTimer := none
          inputs.idleTimer := some (s.now + 100 * s.settings.idleSeconds) }) ∧
    (s.inputs.idleTimer = some e → s.halted = true →
      exec .idleTimerExpiry s = .next { s with inputs.bay := .idle, inputs.idleTimer := none }) ∧
    (s.inputs.idleTimer = some e → s.halt = none → s.share.admissions = [] →
      ∃ t, exec .idleTimerExpiry s = .next t ∧ t.inputs = { s.inputs with bay := .idle, idleTimer := none } ∧
        t.engine = s.engine ∧ t.drives = s.drives ∧ t.track = s.track ∧ t.player = s.player ∧ t.halt = none ∧
        ∀ c : Fin 12,
          t.lamps[c] =
            if s.settings.channels[c].rating ≠ 0 ∧ s.engine.channelOwners[c] = none then
              { s.lamps[c] with
                fadeStart := s.lamps[c].programmed, target := s.settings.channels[c].idleLevel, steps := 300
                stepsDone := 0, fading := true, requester := none, begun := s.now, output := t.lamps[c].output }
            else { s.lamps[c] with output := t.lamps[c].output })

/-! ## The scene engine -/

/-- R3, R6: a cooldown that has ended stops its timer. When its scene is a HOLD scene whose input's latch is present,
it is started in the lowest FREE slot, which takes the latch; any other scene is left as it is. Taken after its time,
the event has the same effect by the model's choice (assumption 12). -/
def Obligations.CooldownEndServesKeptLatch : Prop :=
  ∀ (s : State) (n : Fin 64) (e : Tick), Ready s → s.engine.cooldowns[n] = some e → e ≤ s.now →
    ((∀ sc i, s.scene? n = some sc → sc.trigger = .input i → sc.policy = .hold → s.inputs.inputs[i].latch = none) →
      exec (.cooldownEnd n) s = .next (s.setCooldown n none)) ∧
    ∀ (sc : Scene) (first : StepRecord) (i : Fin 8) (k : Fin 4),
      s.scene? n = some sc → sc.trigger = .input i → sc.policy = .hold → (s.inputs.inputs[i].latch).isSome →
      sc.steps[0]? = some first → 0 < first.delay → s.halt = none →
      (sc.needsPresence = true → 0 < s.inputs.occupancy) →
      (∀ (j : Fin 4) run, s.engine.slots[j].run = some run → run.scene ≠ n) →
      s.engine.slots[k].run = none → (∀ j : Fin 4, j < k → s.engine.slots[j].run ≠ none) →
      exec (.cooldownEnd n) s =
        .next ((State.setSlot
            (s.setCooldown n (if sc.cooldown = 0 then none else some (s.now + 100 * sc.cooldown))) k
            ⟨some ⟨n, sc.priority, s.now, 0, .delaying (s.now + first.delay), .none, 0⟩,
              s.engine.slots[k].mark + 1⟩).setInput i { s.inputs.inputs[i] with latch := none })

/-- R4, R5, R7, R21: the scenes bound to an event are the present ones whose trigger names it, a CUE with the source of
the frame or with 0 and with its tag, each considered once, in ascending scene number. A CUE addressed to every station
or to this one starts the one scene bound to it, when it is not cooling down or active, in the lowest FREE slot; with no
scene bound to it, or another destination, a CUE changes nothing but the last-heard time of its sender. -/
def Obligations.CueStartsBoundScene : Prop :=
  (∀ (s : State) (ev : TriggerEvent),
    let bound (sc : Scene) : Prop :=
      match ev with
      | .input i => sc.trigger = .input i
      | .cue source tag => (sc.trigger = .cue source ∨ sc.trigger = .cue 0) ∧ sc.cueTag = tag
      | .enter => sc.trigger = .enter
      | .empty => sc.trigger = .empty
      | .start => sc.trigger = .start
    ∃ ns : List (Fin 64), s.considerations ev = ns.map (Work.consider ev) ∧ ns.Pairwise (fun m n => m < n) ∧
      ∀ n, n ∈ ns ↔ ∃ sc, s.scene? n = some sc ∧ bound sc) ∧
  ∀ (s : State) (f : Frame), Hears s .cue f →
    let u := s.hearPeer f.source
    ((f.byte 0 ≠ 0 ∧ f.byte 0 ≠ s.settings.station) ∨ s.considerations (.cue f.source (f.byte 1)) = [] →
      exec (.cueReceived f) s = .next u) ∧
    ∀ (n : Fin 64) (sc : Scene) (first : StepRecord) (k : Fin 4),
      f.byte 0 = 0 ∨ f.byte 0 = s.settings.station →
      s.considerations (.cue f.source (f.byte 1)) = [.consider (.cue f.source (f.byte 1)) n] →
      Starts s n sc first k →
      exec (.cueReceived f) s = .next (startedIn u n sc first k)

/-- R5, R6, R23, R98: a CUE trigger is refused for a scene while the station is HALTED, while the scene needs a visitor
and none is there, while it is cooling down, while it is active under IGNORE or HOLD, and while every slot runs another
scene of at least its priority. An active scene under RESTART is cancelled and started again in its slot. With no slot
FREE, the scene of lowest priority, and of those the earliest started in the lowest slot, gives way to one of higher
priority. The cancelled instance's requests and owner records are gone, and its narration fades out. Two scenes bound to
one CUE are started in ascending scene number, each in the lowest slot left FREE. -/
def Obligations.TriggersMeetActiveScenes : Prop :=
  ∀ (s : State) (f : Frame) (n : Fin 64) (sc : Scene) (first : StepRecord), Hears s .cue f →
    f.byte 0 = 0 ∨ f.byte 0 = s.settings.station →
    s.scene? n = some sc → sc.steps[0]? = some first → 0 < first.delay →
    let u := s.hearPeer f.source
    let ev : TriggerEvent := .cue f.source (f.byte 1)
    let cooled (x : Scene) : Option Tick := if x.cooldown = 0 then none else some (s.now + 100 * x.cooldown)
    let started (m : Fin 64) (x : Scene) (r : StepRecord) (k : Fin 4) : Slot :=
      ⟨some ⟨m, x.priority, s.now, 0, .delaying (s.now + r.delay), .none, 0⟩, s.engine.slots[k].mark + 1⟩
    let inactive (m : Fin 64) : Prop := ∀ (j : Fin 4) run, s.engine.slots[j].run = some run → run.scene ≠ m
    let open_ (m : Fin 64) (x : Scene) : Prop :=
      s.halt = none ∧ (x.needsPresence = true → 0 < s.inputs.occupancy) ∧ s.engine.cooldowns[m] = none
    (s.considerations ev = [.consider ev n] →
      (¬open_ n sc ∨ (¬inactive n ∧ sc.policy ≠ .restart) ∨
          (∀ j : Fin 4, ∃ run, s.engine.slots[j].run = some run ∧ run.scene ≠ n ∧ sc.priority ≤ run.priority) →
        exec (.cueReceived f) s = .next u) ∧
      ∀ (k : Fin 4) (run : Running), open_ n sc → s.engine.slots[k].run = some run →
        (run.scene = n ∧ sc.policy = .restart ∧
            ∀ (j : Fin 4) other, j < k → s.engine.slots[j].run = some other → other.scene ≠ n) ∨
          (inactive n ∧ run.priority < sc.priority ∧
            (∀ j : Fin 4, ∃ other, s.engine.slots[j].run = some other ∧
              (run.priority < other.priority ∨ (run.priority = other.priority ∧
                (run.startTime < other.startTime ∨ (run.startTime = other.startTime ∧ k ≤ j))))) ∧
            ∀ x j, s.scene? run.scene = some x → x.trigger = .input j → x.policy = .hold →
              s.inputs.inputs[j].latch = none) →
        let mark := s.engine.slots[k].mark
        s.engine.trackRequester ≠ some ⟨k, mark⟩ →
        ∃ t, exec (.cueReceived f) s = .next t ∧ t.engine.slots[k] = started n sc first k ∧
          (∀ j : Fin 4, j ≠ k → t.engine.slots[j] = s.engine.slots[j]) ∧ t.engine.cooldowns[n] = cooled sc ∧
          (∀ (c : Fin 12) o, t.engine.channelOwners[c] = some o → o.slot ≠ k) ∧
          (∀ (d : Fin 4) o, t.engine.driveOwners[d] = some o → o.slot ≠ k) ∧
          t.player.queue = (s.player.queue.filter fun e => !(e.slot == k && e.mark == mark)) ∧
          (∀ e, s.player.current = some e → e.slot = k → e.mark = mark →
            s.player.state = .playing ∨ s.player.state = .settling →
            t.player.state = .fadingOut ∧ t.player.fadeOutStart = some s.now) ∧
          t.lamps = s.lamps ∧ t.drives = s.drives ∧ t.track = s.track) ∧
    ∀ (n2 : Fin 64) (sc2 : Scene) (first2 : StepRecord) (k k2 : Fin 4),
      s.considerations ev = [.consider ev n, .consider ev n2] → s.scene? n2 = some sc2 →
      sc2.steps[0]? = some first2 → 0 < first2.delay → open_ n sc → open_ n2 sc2 → inactive n → inactive n2 → k < k2 →
      s.engine.slots[k].run = none → s.engine.slots[k2].run = none →
      (∀ j : Fin 4, j < k2 → j ≠ k → s.engine.slots[j].run ≠ none) →
      n < n2 ∧ exec (.cueReceived f) s =
        .next ((((u.setCooldown n (cooled sc)).setSlot k (started n sc first k)).setCooldown n2 (cooled sc2)).setSlot k2
          (started n2 sc2 first2 k2))

/-- R6, R8, R9, R20: a slot whose deadline is reached issues its step and every zero-delay step after it, here a run of
CUE steps to other stations, whose frames join the transmit queue one after the other in class order; it then stands at
the next step, with the deadline that step's delay gives. After the last step of its scene the slot is FREE and its
owner records are cleared, and a HOLD scene whose latch is kept starts again in the lowest FREE slot. A CUE for every
station, or for this one, is queued as well as looped back: once the slot has moved on, a scene bound to it is started.
Taken after its time, the event has the same effect by the model's choice (assumption 12). -/
def Obligations.StepDeadlineIssuesCue : Prop :=
  ∀ (s : State) (k : Fin 4) (i : Running) (sc : Scene) (e : Tick), Ready s → s.engine.slots[k].run = some i →
    s.scene? i.scene = some sc → i.wait = .delaying e → e ≤ s.now →
    let mark := s.engine.slots[k].mark
    let sent (frames : List (Nat × Nat)) : State :=
      { s with
        line.queue := frames.foldl (fun q x => insertTx ⟨.cue x.1 x.2, s.now, false, 0⟩ q) s.line.queue }
    let cues (frames : List (Nat × Nat)) : Prop :=
      frames ≠ [] ∧ s.line.queue.length + frames.length ≤ 8 ∧
        ∀ (j : Nat) (x : Nat × Nat), frames[j]? = some x →
          ∃ r, sc.steps[i.stepIndex + j]? = some r ∧ decodeStep s.settings.trackMode r = some (.cue x.1 x.2) ∧
            (0 < j → r.delay = 0)
    let away (frames : List (Nat × Nat)) : Prop := ∀ x ∈ frames, x.1 ≠ 0 ∧ x.1 ≠ s.settings.station
    let ended (frames : List (Nat × Nat)) : State :=
      State.setSlot
        { sent frames with
          engine.channelOwners := s.engine.channelOwners.map (ownerAfter k)
          engine.driveOwners := s.engine.driveOwners.map (ownerAfter k) } k ⟨none, mark⟩
    (∀ frames, cues frames →
      (∀ next, sc.steps[i.stepIndex + frames.length]? = some next → 0 < next.delay →
        let moved : State := (sent frames).setSlot k
          ⟨some { i with stepIndex := i.stepIndex + frames.length, wait := .delaying (s.now + next.delay) }, mark⟩
        (away frames → exec (.stepDeadline k) s = .next moved) ∧
        ∀ dest tag, frames = [(dest, tag)] → dest = 0 ∨ dest = s.settings.station →
          let ev : TriggerEvent := .cue s.settings.station tag
          (s.considerations ev = [] → exec (.stepDeadline k) s = .next moved) ∧
          ∀ n sc2 first m, s.considerations ev = [.consider ev n] → Starts moved n sc2 first m →
            exec (.stepDeadline k) s = .next (startedIn moved n sc2 first m)) ∧
      (sc.steps[i.stepIndex + frames.length]? = none → away frames →
        (NoRetake s sc → exec (.stepDeadline k) s = .next (ended frames)) ∧
        ∀ (j : Fin 8) first m, sc.trigger = .input j → sc.policy = .hold → (s.inputs.inputs[j].latch).isSome = true →
          Starts (ended frames) i.scene sc first m →
          exec (.stepDeadline k) s =
            .next ((startedIn (ended frames) i.scene sc first m).setInput j
              { s.inputs.inputs[j] with latch := none })))

/-- R14, R15, R19, R85, R86, R87: the wait queue is in order of priority, then of enqueue time, then of entering; an
entry goes in behind those it does not rank before and ahead of the others. A SAY of an absent clip is refused, its
handle DROPPED; one whose clip is present joins the queue, with its patience deadline, its handle QUEUED; one whose clip
the slot has queued already replaces that entry, which keeps its enqueue time and its place among equals. Into a full
queue it goes in place of the last entry when that one's priority is below its own, and the last entry's handle becomes
DROPPED; otherwise it is refused as DROPPED. An AWAIT whose subject is settled is passed at once: a narration handle
NONE or DONE, a drive IDLE or UNHOMED, a STEADY channel, a track block EMPTY or HOLDING, and work of another slot's
drive or channel. One of a handle DROPPED or EXPIRED, of a FAULTED drive or of a FAULTED block fails at once, and is
passed over under CONTINUE. Any other waits, with a deadline when it has a limit. The order of entering is held in a tag
of the model (assumption 17). Taken after its time, the event has the same effect by the model's choice (assumption 12).
-/
def Obligations.SayAndAwaitSteps : Prop :=
  let ahead (x y : SayEntry) : Prop := y.priority < x.priority ∨ (x.priority = y.priority ∧
    (x.enqueued < y.enqueued ∨ (x.enqueued = y.enqueued ∧ x.order < y.order)))
  let inOrder (q : List SayEntry) : Prop := q.Pairwise fun x y => ¬ahead y x
  (∀ (e : SayEntry) (q : List SayEntry), ∃ front back, q = front ++ back ∧ insertSay e q = front ++ e :: back ∧
    (∀ x ∈ front, ¬ahead e x) ∧ (∀ y, back.head? = some y → ahead e y) ∧
    (inOrder q → (∀ y ∈ back, ahead e y) ∧ inOrder (insertSay e q))) ∧
  ∀ (s : State) (k : Fin 4) (i : Running) (next : StepRecord),
    let mark := s.engine.slots[k].mark
    (∀ clip priority patience, Issues s k i (.say clip priority patience) next →
      let entry (enqueued : Tick) (order : Nat) : SayEntry :=
        ⟨k, mark, clip, priority, enqueued, s.now + 100 * max 1 patience, i.sayCount + 1, order⟩
      let queued : Slot := ⟨some { movedOn s i next with sayCount := i.sayCount + 1, handle := .queued }, mark⟩
      let refused : Slot := ⟨some { movedOn s i next with sayCount := i.sayCount + 1, handle := .dropped }, mark⟩
      (s.clip? clip = none → s.abandons k = false → exec (.stepDeadline k) s = .next (s.setSlot k refused)) ∧
      (s.clip? clip ≠ none → s.player.state ≠ .idle →
        (s.player.queue.length < 8 → (∀ x ∈ s.player.queue, x.slot ≠ k ∨ x.clip ≠ clip) →
          exec (.stepDeadline k) s =
            .next (State.setSlot
              { s with
                player.queue := insertSay (entry s.now s.player.entered) s.player.queue
                player.entered := s.player.entered + 1 }
              k queued)) ∧
        (∀ front last, s.player.queue = front ++ [last] → front.length = 7 →
          (∀ x ∈ s.player.queue, x.slot ≠ k ∨ x.clip ≠ clip) →
          (priority ≤ last.priority → s.abandons k = false →
            exec (.stepDeadline k) s = .next (s.setSlot k refused)) ∧
          (last.priority < priority → NobodyAwaits s .narration →
            ∃ t, exec (.stepDeadline k) s = .next t ∧
              t.player =
                { s.player with
                  queue := insertSay (entry s.now s.player.entered) front, entered := s.player.entered + 1 } ∧
              t.engine.slots[k] = queued ∧
              (∀ j : Fin 4, j ≠ k → j ≠ last.slot → t.engine.slots[j] = s.engine.slots[j]) ∧
              (∀ x, last.slot ≠ k → s.engine.slots[last.slot].mark = last.mark →
                s.engine.slots[last.slot].run = some x → x.sayCount = last.sayNumber →
                t.engine.slots[last.slot] = ⟨some { x with handle := .dropped }, last.mark⟩) ∧
              t = { s with player := t.player, engine.slots := t.engine.slots })) ∧
        ∀ x, s.player.queue.find? (fun y => y.slot == k && y.clip == clip) = some x →
          exec (.stepDeadline k) s =
            .next (State.setSlot
              { s with
                player.queue :=
                  insertSay (entry x.enqueued x.order)
                    (s.player.queue.filter fun y => !(y.slot == k && y.clip == clip)) }
              k queued))) ∧
    ∀ subject limit, Issues s k i (.await subject limit) next →
      let goesOn : Prop := exec (.stepDeadline k) s = .next (s.setSlot k ⟨some (movedOn s i next), mark⟩)
      (PassesAtOnce s k i.handle subject → goesOn) ∧
      (FailsAtOnce s i.handle subject → s.abandons k = false → goesOn) ∧
      (¬PassesAtOnce s k i.handle subject → ¬FailsAtOnce s i.handle subject →
        exec (.stepDeadline k) s =
          .next (s.setSlot k
            ⟨some { i with wait := .awaiting subject (if limit = 0 then none else some (s.now + limit)) }, mark⟩))

/-- R16, R17, R18, R63, R64, R65, R66, R106, R108, R121: a MOVE of the track segment or of a FAULTED drive, and of an
unhomed drive with an UNHOMED record, is refused. A MOVE of a homed drive at rest asks for power with the clamped target
and class: when the running demand with its watts lies within the allowance worked out with them, it runs in the same
recomputation, braking in its band and driving toward its target outside; otherwise it waits in PENDING_POWER. A HOME of
an IDLE, UNHOMED or FAULTED drive does the same, its homed flag clear; with the home switch closed the started run ends
at once. A SEND from HOLDING with the line ACTIVE and a downstream station makes the block ask, with a BLOCK_ASK when it
is admitted; any other SEND is refused. Clauses that are the model's choice: that a FAULTED drive gets no UNHOMED record,
that the brake of a halt runs on in a waiting HOME, and that a run ended at once by the home switch keeps its requester
are read by inference (assumptions 18, 25, 28); the direction kept in the band, the blanking end in whole ms, that none
is kept where the output brakes or goes off, and the effect of an event taken after its time are chosen (assumptions 12,
44, 50, 51). -/
def Obligations.DriveAndSendStepsAskForPower : Prop :=
  ∀ (s : State) (k : Fin 4) (i : Running) (next : StepRecord) (d : Fin 4) (speedClass : Fin 4),
    let mark := s.engine.slots[k].mark
    let r := s.drives[d]
    let c := s.settings.drives[d]
    let w := s.driveWatts d
    let class_ : Fin 4 := if c.duties[speedClass] = 0 then 0 else speedClass
    let passedOver (u : State) : State := u.setSlot k ⟨some (movedOn s i next), mark⟩
    let segment : Prop := s.settings.trackMode = true ∧ d = 3
    let fits : Prop := fitsWith s (s.motorDemand + w) s.startedDemand w
    let asked (t : State) : Prop :=
      exec (.stepDeadline k) s = .next t ∧ t.engine.slots[k] = ⟨some (movedOn s i next), mark⟩ ∧
        t.engine.driveOwners[d] = some ⟨k, i.priority⟩ ∧ (∀ j : Fin 4, j ≠ d → t.drives[j] = s.drives[j]) ∧
        t.share.admissions = (if fits then [] else [⟨.driveRun, d, w, s.now⟩]) ∧ t.track = s.track ∧
        t.player = s.player ∧ t.inputs = s.inputs ∧ t.memory = s.memory
    (∀ target, Issues s k i (.move d target speedClass) next →
      (segment ∨ r.state = .faulted → s.abandons k = false → exec (.stepDeadline k) s = .next (passedOver s)) ∧
      (¬segment → r.state ≠ .faulted → r.homed = false → s.abandons k = false →
        exec (.stepDeadline k) s = .next (passedOver (s.recordFault .unhomed d.val))) ∧
      (¬segment → r.state = .idle → r.homed = true → NobodyAwaits s (.drive d) → s.halt = none →
        s.share.admissions = [] →
        let goal := max c.softLow (min c.softHigh target)
        let set : Drive := { r with target := goal, speedClass := class_, requester := some ⟨k, mark⟩ }
        let started : Drive := { set with state := .moving, pending := none, reversals := 0 }
        ∃ t, asked t ∧
          (fits → r.position ≤ goal + c.tolerance ∧ goal ≤ r.position + c.tolerance →
            t.drives[d] = brakingDrive started s) ∧
          (fits → ¬(r.position ≤ goal + c.tolerance ∧ goal ≤ r.position + c.tolerance) →
            t.drives[d] =
              drivingDrive
                { started with
                  up := decide (r.position < goal)
                  classInForce :=
                    if r.position ≤ goal + c.approach ∧ goal ≤ r.position + c.approach then 0 else class_ } c s) ∧
          (¬fits → t.drives[d] = { set with state := .pendingPower, pending := some .move }))) ∧
    (Issues s k i (.home d) next → ¬segment → r.state = .idle ∨ r.state = .unhomed ∨ r.state = .faulted →
      NobodyAwaits s (.drive d) → s.halt = none → s.share.admissions = [] →
      let set : Drive :=
        { r with
          homed := false, requester := some ⟨k, mark⟩, braking := false, stillTimer := none, stallTimer := none
          samples := [], blankingEnd := none }
      let started : Drive :=
        { set with state := .homing, pending := none, travel := 0, up := false, classInForce := 0 }
      ∃ t, asked t ∧
        (fits → r.homeClosed = false → t.drives[d] = drivingDrive started c s) ∧
        (fits → r.homeClosed = true →
          t.drives[d] = { started with state := .idle, position := 0, homed := true, brakeUntil := none }) ∧
        (¬fits → t.drives[d] = { set with state := .pendingPower, pending := some .home })) ∧
    (Issues s k i (.send speedClass) next →
      let ready : Prop := s.settings.trackMode = true ∧ s.settings.downstream ≠ 0 ∧ s.track.state = .holding ∧
        s.line.state = .active
      let w := s.driveWatts 3
      let fits : Prop := fitsWith s (s.motorDemand + w) s.startedDemand w
      let class_ : Fin 4 := if s.settings.drives[(3 : Fin 4)].duties[speedClass] = 0 then 0 else speedClass
      let asking : Track :=
        { s.track with
          state := .askingPower, peer := some s.settings.downstream, speedClass := class_, arriveSeen := false
          departSeen := false, settle := .stopped, grantTimer := .stopped, retryTimer := none, giveUpTimer := none
          exchange := s.track.exchange + 1 }
      (¬ready → s.abandons k = false → exec (.stepDeadline k) s = .next (passedOver s)) ∧
      (ready → s.drives[(3 : Fin 4)].state = .track → s.halt = none → s.share.admissions = [] →
        s.line.queue.length < 8 →
        ∃ t, exec (.stepDeadline k) s = .next t ∧ t.engine.slots[k] = ⟨some (movedOn s i next), mark⟩ ∧
          t.engine.trackRequester = some ⟨k, mark⟩ ∧ t.drives = s.drives ∧ t.player = s.player ∧
          (fits → t.share.admissions = [] ∧
            t.track =
              { asking with
                state := .askingAsked, retryTimer := some (s.now + 100), giveUpTimer := some (s.now + 6000) } ∧
            ⟨.blockAsk s.settings.downstream class_.val, s.now, false, s.track.exchange + 1⟩ ∈ t.line.queue) ∧
          (¬fits → t.share.admissions = [⟨.segmentSend, 3, w, s.now⟩] ∧ t.track = asking)))

/-- R11, R12, R17, R67, R106, R110: MOVE and HOME steps for a drive whose work is not finished. Owned by a slot of
higher priority, the drive is left alone and the step is passed over. A MOVE on a MOVING drive sets the new target: in
its band the drive brakes, on its way it goes on, and otherwise it turns. A MOVE on a drive that waits for power changes
the waiting request; taken over from another slot, the waiting request is abandoned with no NO_POWER record, the AWAIT
of the slot that waited on it completes PREEMPTED, and a new request is made, which starts when it fits and else waits
from now. A HOME on a HOMING drive changes its requester alone; on a drive that waits for power it makes the waiting
request a HOME; and a MOVING drive stops driving, unhomed, and asks for power anew. Clauses that are the model's choice:
that its output goes off, and that a slot which AWAITS the drive without owning it is PREEMPTED, are read by inference
(assumptions 14, 19); the direction kept by a MOVE started or set anew in its band, the blanking end in whole ms, that
none is kept where the output brakes or goes off, and the effect of an event taken after its time are chosen
(assumptions 12, 44, 50, 51). -/
def Obligations.RequestsOfBusyDrives : Prop :=
  ∀ (s : State) (k : Fin 4) (i : Running) (next : StepRecord) (d : Fin 4) (a : Action),
    Issues s k i a next → ¬(s.settings.trackMode = true ∧ d = 3) →
    let mark := s.engine.slots[k].mark
    let r := s.drives[d]
    let c := s.settings.drives[d]
    let w := s.driveWatts d
    let owner := s.engine.driveOwners[d]
    let busy : Prop := r.state = .homing ∨ r.state = .pendingPower ∨ r.state = .moving
    let mine : Prop := ∀ o, owner = some o → o.slot = k
    let takes : Prop := ∀ o, owner = some o → o.slot = k ∨ o.priority ≤ i.priority
    let becomes (r' : Drive) : Prop :=
      exec (.stepDeadline k) s =
        .next ((((s.setDriveOwner d (some ⟨k, i.priority⟩)).setDrive d r')).setSlot k
          ⟨some (movedOn s i next), mark⟩)
    let entry : AdmissionEntry := ⟨.driveRun, d, w, s.now⟩
    let asked (t : State) : Prop :=
      exec (.stepDeadline k) s = .next t ∧ t.engine.slots[k] = ⟨some (movedOn s i next), mark⟩ ∧
        t.engine.driveOwners[d] = some ⟨k, i.priority⟩ ∧ (∀ j : Fin 4, j ≠ d → t.drives[j] = s.drives[j]) ∧
        t.track = s.track ∧ t.player = s.player ∧
        ∀ x ∈ t.faults.records, x.kind = .noPower → ∃ y ∈ s.faults.records, y.kind = .noPower
    (∀ o, owner = some o → o.slot ≠ k → i.priority < o.priority → busy →
      (∃ target class_, a = .move d target class_ ∧ r.homed = true) ∨ a = .home d →
      exec (.stepDeadline k) s = .next (s.setSlot k ⟨some (movedOn s i next), mark⟩)) ∧
    (∀ target speedClass, a = .move d target speedClass → r.homed = true →
      let goal := max c.softLow (min c.softHigh target)
      let class_ : Fin 4 := if c.duties[speedClass] = 0 then 0 else speedClass
      let inForce : Fin 4 :=
        if r.position ≤ goal + c.approach ∧ goal ≤ r.position + c.approach then 0 else class_
      let set : Drive := { r with target := goal, speedClass := class_, requester := some ⟨k, mark⟩ }
      let turned : Drive := { set with reversals := 0 }
      let inBand : Prop := r.position ≤ goal + c.tolerance ∧ goal ≤ r.position + c.tolerance
      let goesOn : Prop := r.braking = false ∧ r.up = decide (r.position < goal)
      (r.state = .moving → takes → NobodyAwaits s (.drive d) →
        (inBand → becomes (brakingDrive turned s)) ∧
        (¬inBand → goesOn → becomes { turned with classInForce := inForce }) ∧
        (¬inBand → ¬goesOn →
          becomes (drivingDrive { turned with up := decide (r.position < goal), classInForce := inForce } c s))) ∧
      (r.state = .pendingPower → mine → NobodyAwaits s (.drive d) → becomes set) ∧
      ∀ (o : Owner) (e : AdmissionEntry) (j : Fin 4) (i2 : Running) (next2 : StepRecord),
        r.state = .pendingPower → r.pending = some .move → owner = some o → o.slot ≠ k → o.priority ≤ i.priority →
        s.halt = none → s.share.admissions = [e] → e.drive = d → j ≠ k → AwaitsNext s j i2 (.drive d) next2 →
        (∀ m : Fin 4, s.engine.slots[m].awaits (.drive d) = true → m = j) →
        let fits : Prop := fitsWith s s.motorDemand s.startedDemand w
        ∃ t, asked t ∧ t.engine.slots[j] = ⟨some (movedOn s i2 next2), s.engine.slots[j].mark⟩ ∧
          t.share.admissions = (if fits then [] else [entry]) ∧
          (fits → inBand → t.drives[d] = brakingDrive { turned with state := .moving, pending := none } s) ∧
          (fits → ¬inBand →
            t.drives[d] =
              drivingDrive
                { turned with
                  state := .moving, pending := none, up := decide (r.position < goal), classInForce := inForce } c s) ∧
          (¬fits → t.drives[d] = set)) ∧
    (a = .home d →
      let set : Drive := { r with homed := false, requester := some ⟨k, mark⟩ }
      (r.state = .homing → takes → NobodyAwaits s (.drive d) →
        becomes { r with requester := some ⟨k, mark⟩ }) ∧
      (r.state = .pendingPower → mine → NobodyAwaits s (.drive d) → becomes { set with pending := some .home }) ∧
      (r.state = .moving → takes → NobodyAwaits s (.drive d) → s.halt = none → s.share.admissions = [] →
        let stopped : Drive :=
          { set with
            braking := false, stillTimer := none, stallTimer := none, samples := [], blankingEnd := none }
        let fits : Prop := fitsWith s s.motorDemand (s.startedDemand - w) w
        ∃ t, asked t ∧ t.share.admissions = (if fits then [] else [entry]) ∧
          (fits → r.homeClosed = false →
            t.drives[d] =
              drivingDrive
                { stopped with state := .homing, pending := none, travel := 0, up := false, classInForce := 0 } c s) ∧
          (¬fits → t.drives[d] = { stopped with state := .pendingPower, pending := some .home })))

/-- R11, R12, R13, R19, R43: a FADE step takes the used channels of its set that have no owner, are its own, have an
owner of at most its priority or have finished their fade, and starts a fade of the clamped target and length on each;
every other channel keeps its owner and its fade. Another slot that AWAITS a channel taken over from its owner is
PREEMPTED, and moves on to its next step, as it does at a fade of length 0, which ends at its start; a slot that AWAITS
a channel taken with no takeover waits on. That a takeover preempts a slot that does not own the channel too is read by
inference (assumption 14); the effect of an event taken after its time is the model's choice (assumption 12). -/
def Obligations.FadeStepRespectsOwners : Prop :=
  ∀ (s : State) (k : Fin 4) (i : Running) (next : StepRecord) (set : BitVec 12) (target duration : Nat),
    Issues s k i (.fade set target duration) next → NothingWaits s →
    let taken (c : Fin 12) : Prop := set.getLsbD c.val = true ∧ s.settings.channels[c].rating ≠ 0 ∧
      ∀ o, s.engine.channelOwners[c] = some o → o.slot = k ∨ o.priority ≤ i.priority ∨ s.lamps[c].fading = false
    let done (t : State) : Prop :=
      exec (.stepDeadline k) s = .next t ∧ t.engine.slots[k].run = some (movedOn s i next) ∧
        ∀ c : Fin 12,
          (taken c →
            t.engine.channelOwners[c] = some ⟨k, i.priority⟩ ∧
              t.lamps[c] =
                { s.lamps[c] with
                  programmed := if min duration 60000 = 0 then min target 1000 else s.lamps[c].programmed
                  fadeStart := s.lamps[c].programmed, target := min target 1000, steps := min duration 60000
                  stepsDone := 0, fading := decide (min duration 60000 ≠ 0)
                  requester := some ⟨k, s.engine.slots[k].mark⟩, begun := s.now, output := t.lamps[c].output }) ∧
          (¬taken c →
            t.engine.channelOwners[c] = s.engine.channelOwners[c] ∧
              t.lamps[c] = { s.lamps[c] with output := t.lamps[c].output })
    ((∀ c : Fin 12, NobodyAwaits s (.fade c)) → ∃ t, done t ∧ ∀ j : Fin 4, j ≠ k →
      t.engine.slots[j] = s.engine.slots[j]) ∧
    ∀ (j : Fin 4) (c : Fin 12) (i2 : Running) (next2 : StepRecord), j ≠ k → taken c →
      AwaitsNext s j i2 (.fade c) next2 →
      (∀ (m : Fin 4) (c2 : Fin 12), s.engine.slots[m].awaits (.fade c2) = true → m = j) →
      let completes : Prop := OtherOwns s.engine.channelOwners[c] k ∨ min duration 60000 = 0
      (completes → ∃ t, done t ∧ t.engine.slots[j] = ⟨some (movedOn s i2 next2), s.engine.slots[j].mark⟩) ∧
      (¬completes → ∃ t, done t ∧ t.engine.slots[j] = s.engine.slots[j])

/-- R9, R19, R22, R23, R123: a step that cannot be decoded records SCENE_BAD and fails; an AWAIT whose subject has
failed when it is issued fails, and so does one that reaches its limit. Under CONTINUE the slot moves on to its next
step; under ABANDON it becomes FREE, its owner records cleared and the rest of its scene not issued. When the slot is
the track requester and the block is ASKING, that cancel withdraws the ask: the block is HOLDING, the segment's request
off the list, a BLOCK_ASK that waits out of the queue, and a BLOCK_RELEASE(CANCEL) handed over; a BLOCK_ASK of an older
exchange is left, as is read by inference (assumption 17). Taken after its time, the event has the same effect by the
model's choice (assumption 12). -/
def Obligations.FailedStepFollowsPolicy : Prop :=
  ∀ (s : State) (k : Fin 4) (i : Running) (sc : Scene) (c : Instr) (u : State),
    Ready s → s.engine.slots[k].run = some i → s.scene? i.scene = some sc →
    ((∃ e r, c = .stepDeadline k ∧ i.wait = .delaying e ∧ e ≤ s.now ∧ sc.steps[i.stepIndex]? = some r ∧
        decodeStep s.settings.trackMode r = none ∧ u = s.recordFault .sceneBad i.scene.val) ∨
      (∃ e r subject limit, c = .stepDeadline k ∧ i.wait = .delaying e ∧ e ≤ s.now ∧ sc.steps[i.stepIndex]? = some r ∧
        decodeStep s.settings.trackMode r = some (.await subject limit) ∧ FailsAtOnce s i.handle subject ∧ u = s) ∨
      (∃ subject e, c = .awaitTimeout k ∧ i.wait = .awaiting subject (some e) ∧ e ≤ s.now ∧ u = s)) →
    (∀ next, sc.abandon = false → sc.steps[i.stepIndex + 1]? = some next → 0 < next.delay →
      exec c s =
        .next (u.setSlot k
          ⟨some { i with stepIndex := i.stepIndex + 1, wait := .delaying (s.now + next.delay) },
            s.engine.slots[k].mark⟩)) ∧
    (sc.abandon = true → s.engine.trackRequester ≠ some ⟨k, s.engine.slots[k].mark⟩ → s.player.state = .idle →
      (∀ i', sc.trigger = .input i' → sc.policy = .hold → s.inputs.inputs[i'].latch = none) →
      ∃ t, exec c s = .next t ∧ t.engine.slots[k] = ⟨none, s.engine.slots[k].mark⟩ ∧
        (∀ j : Fin 4, j ≠ k → t.engine.slots[j] = s.engine.slots[j]) ∧
        (∀ (ch : Fin 12) o, t.engine.channelOwners[ch] = some o → o.slot ≠ k) ∧
        (∀ (d : Fin 4) o, t.engine.driveOwners[d] = some o → o.slot ≠ k) ∧
        t.lamps = s.lamps ∧ t.drives = s.drives ∧ t.track = s.track ∧ t.faults = u.faults) ∧
    (sc.abandon = true → s.engine.trackRequester = some ⟨k, s.engine.slots[k].mark⟩ → s.asking = true → NoRetake s sc →
      (∀ j : Fin 4, j ≠ k → s.engine.slots[j].awaits .track = false) → NothingElseWaits s 3 →
      s.line.queue.length < 8 →
      ∃ t, exec c s = .next t ∧ t.engine = { (freed s k).engine with trackRequester := none } ∧
        t.track =
          { s.track with
            state := .holding, peer := none, grantTimer := .stopped, retryTimer := none, giveUpTimer := none } ∧
        (∃ x ∈ t.line.queue, x.body = .blockRelease (s.track.peer.getD 0) .cancel) ∧
        (s.track.state = .askingAsked →
          ∀ x ∈ t.line.queue, x.isAsk = true → x.inTransmission = true ∨ x.claim ≠ s.track.exchange) ∧
        (∀ x ∈ t.share.admissions, x.drive ≠ 3) ∧ t.share.motorDemand = t.motorDemand ∧ t.drives = s.drives)

/-! ## Lamp channels and fades -/

/-- R19, R44, R45, R46: a fade step moves the programmed level to S + trunc((T − S) × k / N) and nothing else but output
levels. The last step leaves the channel STEADY at its target, and the lamp demand is that of the peak levels; a slot
AWAITING the fade moves on to its next step (R19), whoever asked for the fade by the model's choice (assumption 14).
Taken after its time, the event has the same effect by the model's choice (assumption 12). -/
def Obligations.FadeTakesItsSteps : Prop :=
  ∀ (s : State) (c : Fin 12), Ready s → s.lamps[c].fading = true →
    s.lamps[c].begun + s.lamps[c].stepsDone + 1 ≤ s.now →
    let r := s.lamps[c]
    let k := r.stepsDone + 1
    (k < r.steps →
      ∃ t, exec (.fadeStep c) s = .next t ∧ t = { s with lamps := t.lamps } ∧
        t.lamps[c] =
          { r with
            stepsDone := k
            programmed :=
              ((r.fadeStart : Int) + (((r.target : Int) - (r.fadeStart : Int)) * (k : Int)).tdiv (r.steps : Int)).toNat
            output := t.lamps[c].output } ∧
        ∀ j : Fin 12, j ≠ c → t.lamps[j] = { s.lamps[j] with output := t.lamps[j].output }) ∧
    let ends (engine : SceneEngine) : Prop :=
      ∃ t, exec (.fadeStep c) s = .next t ∧
        t.lamps[c] = { r with stepsDone := k, programmed := r.target, fading := false, output := t.lamps[c].output } ∧
        (∀ j : Fin 12, j ≠ c → t.lamps[j] = { s.lamps[j] with output := t.lamps[j].output }) ∧
        t.share.lampDemand = t.lampDemand ∧ t.engine = engine ∧ t.drives = s.drives ∧ t.track = s.track ∧
        t.player = s.player ∧ t.inputs = s.inputs
    (k = r.steps → NothingWaits s →
      (NobodyAwaits s (.fade c) → ends s.engine) ∧
      ∀ j i next, AwaitsAlone s j i (.fade c) next →
        ends (s.setSlot j ⟨some (movedOn s i next), s.engine.slots[j].mark⟩).engine)

/-- R44: every level of a fade lies between its start and its target, the last is the target, and a fade that rises
never falls back. -/
def Obligations.FadeLevelStaysBetween : Prop :=
  ∀ start target n k : Nat, 0 < n → k ≤ n →
    min start target ≤ fadeLevel start target k n ∧ fadeLevel start target k n ≤ max start target ∧
    fadeLevel start target 0 n = start ∧ fadeLevel start target n n = target ∧
    (start ≤ target → ∀ j, j ≤ k → fadeLevel start target j n ≤ fadeLevel start target k n)

/-- R48: the output level of a used channel is its programmed level while the lamp allowance is at least the lamp
demand, and else that level scaled by their ratio, rounded down; that of an unused channel is 0. No output level
exceeds its programmed level. While every programmed level lies within its channel's peak, and the demand handed over
is the present one (R46), the station's lamp draw never exceeds its lamp allowance. -/
def Obligations.LampDrawWithinAllowance : Prop :=
  ∀ s : State,
    let t := s.refreshOutputs
    (∀ c : Fin 12,
      t.lamps[c].output =
          (if s.settings.channels[c].rating = 0 then 0
            else if s.share.lampDemand ≤ s.share.lampAllowance then s.lamps[c].programmed
            else s.lamps[c].programmed * s.share.lampAllowance / s.share.lampDemand) ∧
        t.lamps[c].output ≤ s.lamps[c].programmed) ∧
    ((∀ c : Fin 12, s.lamps[c].programmed ≤ s.lamps[c].peak) → s.share.lampDemand = s.lampDemand →
      ((List.finRange 12).map fun c => s.settings.channels[c].rating * t.lamps[c].output).sum ≤
        s.share.lampAllowance)

/-! ## Sharing the gallery supply -/

/-- R62: the allowance by line state, demand, peer sum, capacity and base share. -/
def Obligations.AllowanceFollowsLineState : Prop :=
  ∀ own peers capacity base : Nat,
    (∀ line, line = .joining ∨ line = .silent → allowance line own peers capacity base = min own base) ∧
    (∀ line, line = .active ∨ line = .mute →
      (own ≤ base → allowance line own peers capacity base = own) ∧
      (base < own → own + peers ≤ capacity → allowance line own peers capacity base = own) ∧
      (base < own → capacity < own + peers →
        allowance line own peers capacity base = max base (capacity * own / (own + peers)))) ∧
    ∀ line, line ≠ .off →
      allowance line own peers capacity base ≤ own ∧ min own base ≤ allowance line own peers capacity base

/-- R46, R59, R60, R61, R62, R63: when every station of a group has heard every other, uses the same capacity and has no
base share, their allowances together stay within the capacity. A recomputation that starts no request works the
demands, the allowance, the lamp allowance and the output levels out afresh, owes the announcement check, and changes
nothing else. That one made while HALTED starts no request that waits is the model's choice (assumption 13). -/
def Obligations.RecomputationSharesSupply : Prop :=
  (∀ (demands : List Nat) (capacity : Nat),
    (demands.map fun d => allowance .active d (demands.sum - d) capacity 0).sum ≤ capacity) ∧
  ∀ s : State, NothingWaits s →
    let own := s.lampDemand + s.motorDemand
    let a := allowance s.line.state own s.peerSum (1000 * s.settings.capacity) (1000 * s.settings.baseShare)
    let t := s.recompute
    t.share =
        { s.share with
          lampDemand := s.lampDemand, motorDemand := s.motorDemand, startedDemand := s.startedDemand
          ownDemand := own, peerSum := s.peerSum, allowance := a, lampAllowance := a - s.startedDemand } ∧
      (∀ c : Fin 12,
        t.lamps[c] =
          { s.lamps[c] with
            output :=
              if s.settings.channels[c].rating = 0 then 0
              else if s.lampDemand ≤ a - s.startedDemand then s.lamps[c].programmed
              else s.lamps[c].programmed * (a - s.startedDemand) / s.lampDemand }) ∧
      t = { s with share := t.share, lamps := t.lamps, announceCheck := true }

/-- R65, R66, R73: while HALTED a pass of the admission list does nothing; that this holds for a list that is not empty
yet is the model's choice (assumption 13). Otherwise it never takes the started motor demand above the allowance, unless
it was above before. An entry at the head of the list that fits leaves it. An entry that alone does not fit stays, and
its drive is left as it is; each entry that stays would take the started demand above the allowance. An entry that has
left runs: its drive MOVING or HOMING by its pending kind, the block ASKED, or the segment. For a pending HOME whose
home switch is closed, two things are read by inference (assumption 45): that its drive is HOMING after the pass, and
that its watts are in the started demand with which each entry that stays exceeds the allowance. -/
def Obligations.AdmissionPassWithinAllowance : Prop :=
  ∀ s : State,
    let list := s.share.admissions
    let t := s.testAdmissions
    (s.halt ≠ none → t = s) ∧
    ((∀ e ∈ list, e.watts = s.driveWatts e.drive ∧ (e.kind = .segmentStart → e.drive = 3)) →
      (∀ d : Fin 4, s.drives[d].state = .track → d = 3) →
      t.startedDemand ≤ max s.startedDemand s.share.allowance) ∧
    (s.halt = none → list.Pairwise (fun x y => x.drive ≠ y.drive) → (∀ e ∈ list, e.kind ≠ .driveRun → e.drive = 3) →
      (∀ e es, list = e :: es → s.startedDemand + e.watts ≤ s.share.allowance → e ∉ t.share.admissions) ∧
      (∀ e ∈ t.share.admissions, e ∈ list ∧ s.share.allowance < t.startedDemand + e.watts) ∧
      (∀ e ∈ list, s.share.allowance < s.startedDemand + e.watts →
        e ∈ t.share.admissions ∧ t.drives[e.drive] = s.drives[e.drive]) ∧
      ∀ e ∈ list, e ∉ t.share.admissions →
        (e.kind = .driveRun → s.drives[e.drive].pending = some .move → t.drives[e.drive].state = .moving) ∧
        (e.kind = .driveRun → s.drives[e.drive].pending = some .home → t.drives[e.drive].state = .homing) ∧
        (e.kind = .segmentSend → t.track.state = .askingAsked) ∧ (e.kind = .segmentStart → t.track.running = true))

/-- R74, R75: while the line is ACTIVE or MUTE, an announcement is due when 10 ticks have passed since the last one and
the announced demand or the halted flag has changed, or when 200 ticks have passed. It hands a LOAD over with the
present demand, supply group and halted flag, and is the last announcement from then on. The LOAD takes the place of one
that waits, or joins the end of the queue. An ANNOUNCEMENT_DUE that is not due has no effect (assumption 11). Taken
after its time, the event has the same effect by the model's choice (assumption 12). -/
def Obligations.AnnouncementHandsOverLoad : Prop :=
  ∀ s : State, Ready s →
    let w := min 65535 ((s.share.ownDemand + 999) / 1000)
    let load : TxEntry := ⟨.load w s.settings.group s.halted, s.now, false, 0⟩
    let due : Prop := (s.line.state = .active ∨ s.line.state = .mute) ∧ ∃ a, s.share.lastAnnouncement = some a ∧
      ((a.time + 10 ≤ s.now ∧ (a.demand ≠ w ∨ a.halted ≠ s.halted)) ∨ a.time + 200 ≤ s.now)
    (¬due → exec .announcementDue s = .next s) ∧
    (due →
      ∃ t, exec .announcementDue s = .next t ∧
        t.share = { s.share with lastAnnouncement := some ⟨w, s.halted, s.now⟩ } ∧
        ((∀ e ∈ s.line.queue, e.isLoad = false) → s.line.queue.length < 8 → t.line.queue = s.line.queue ++ [load]) ∧
        ((∃ e ∈ s.line.queue, e.isLoad = true) → (∀ e ∈ s.line.queue, e.isLoad = true → e.inTransmission = false) →
          t.line.queue = s.line.queue.map fun e => if e.isLoad then load else e) ∧
        t = { s with share := t.share, line := t.line, faults := t.faults })

/-- R19, R22, R68, R115, R121: a request that has waited 500 ticks fails with NO_POWER. A drive leaves PENDING_POWER, to
UNHOMED for a HOME and IDLE for a MOVE; the request of a SEND leaves the track block HOLDING. The failure reaches the
slot whose step asked for it, while that instance runs and, for a drive, owns it: under CONTINUE the slot carries on
where it stands, under ABANDON its instance is cancelled. A slot that AWAITS the drive or the track fails there, once.
That the requester is kept, and that an AWAIT fails whoever asked for the work, are read by inference (assumptions 14,
25). Taken after its time, the event has the same effect by the model's choice (assumption 12). -/
def Obligations.AdmissionTimeoutFails : Prop :=
  ∀ (s : State) (d : Fin 4) (e : AdmissionEntry), Ready s → s.share.admissions = [e] → e.drive = d →
    e.entered + 500 ≤ s.now →
    (e.kind = .driveRun → s.drives[d].state = .pendingPower →
      let asked (k : Fin 4) : Prop := s.drives[d].requester = some ⟨k, s.engine.slots[k].mark⟩ ∧
        ∃ o, s.engine.driveOwners[d] = some o ∧ o.slot = k
      let alone (k : Fin 4) : Prop := s.engine.trackRequester ≠ some ⟨k, s.engine.slots[k].mark⟩
      FailureReaches s (.drive d) asked alone fun engine =>
        ∃ t, exec (.admissionTimeout d) s = .next t ∧ t.share.admissions = [] ∧
          t.drives[d] =
            { s.drives[d] with
              state := if s.drives[d].pending = some .home then .unhomed else .idle, pending := none } ∧
          t.share.motorDemand = t.motorDemand ∧
          (∃ r ∈ t.faults.records, r.kind = .noPower ∧ r.detail = BitVec.ofNat 8 d.val) ∧ t.track = s.track ∧
          t.engine = engine) ∧
    (e.kind = .segmentSend → d = 3 → s.track.state = .askingPower →
      let asked (k : Fin 4) : Prop := s.engine.trackRequester = some ⟨k, s.engine.slots[k].mark⟩
      FailureReaches s .track asked (fun _ => True) fun engine =>
        ∃ t, exec (.admissionTimeout d) s = .next t ∧ t.share.admissions = [] ∧ t.track.state = .holding ∧
          t.track.peer = none ∧ (∃ r ∈ t.faults.records, r.kind = .noPower ∧ r.detail = 3) ∧
          t.drives = s.drives ∧ t.engine = { engine with trackRequester := none })

/-! ## The transmit queue and narration claims -/

/-- R138, R139: a frame handed over joins the queue behind the frames of its class and of more urgent ones, so the
queue stays in class order. A LOAD takes the place of one that waits, and is held aside while one is in transmission.
When the queue is full, the LOAD that waits is discarded for a frame, else the last frame of a less urgent class that is
not in transmission, else the frame itself, each with LINE_OVERRUN and its class; a claim whose TALK_INTENT is discarded
ends. That its start check then waits for a place is the model's choice (assumption 9). -/
def Obligations.TransmitQueueKeepsOrder : Prop :=
  ∀ (s : State) (body : FrameBody), s.line.queue.Pairwise (fun x y => x.body.cls ≤ y.body.cls) →
    s.line.queue.length ≤ 8 →
    let q := s.line.queue
    let e : TxEntry := ⟨body, s.now, false, 0⟩
    let t := s.handOver body
    let enters : Prop := body.kind ≠ .load ∨ ∀ x ∈ q, x.isLoad = false
    let overrun (n : Nat) : Prop :=
      t.faults.records = mergeFault s.faults.records .lineOverrun (BitVec.ofNat 8 n) s.showTime
    t.line.queue.Pairwise (fun x y => x.body.cls ≤ y.body.cls) ∧ t.line.queue.length ≤ 8 ∧
    (body.kind = .load → (∃ x ∈ q, x.isLoad = true ∧ x.inTransmission = true) →
      t = { s with line.heldLoad := some e }) ∧
    (body.kind = .load → (∃ x ∈ q, x.isLoad = true) → (∀ x ∈ q, x.isLoad = true → x.inTransmission = false) →
      t = { s with line.queue := q.map fun x => if x.isLoad then e else x }) ∧
    (enters → q.length < 8 →
      ∃ front back, q = front ++ back ∧ (∀ x ∈ front, x.body.cls ≤ body.cls) ∧
        (∀ x ∈ back, body.cls < x.body.cls) ∧ t = { s with line.queue := front ++ e :: back }) ∧
    (enters → q.length = 8 →
      (∀ front x back, q = front ++ x :: back → x.isLoad = true → x.inTransmission = false →
        (∀ y ∈ back, y.isLoad = false ∨ y.inTransmission = true) →
        t.line.queue = insertTx e (front ++ back) ∧ overrun 3 ∧ t.player = s.player) ∧
      ((∀ x ∈ q, x.isLoad = false ∨ x.inTransmission = true) →
        (∀ front x back, q = front ++ x :: back → x.inTransmission = false → body.cls < x.body.cls →
          (∀ y ∈ back, y.inTransmission = true ∨ y.body.cls ≤ body.cls) →
          t.line.queue = insertTx e (front ++ back) ∧ overrun x.body.cls ∧
            (x.isIntent = true → x.claim = s.player.claim → s.player.state = .settling →
              s.player.intentSent = false → t.player.state = .idle ∧ t.player.current = none ∧
                t.player.bounced = true) ∧
            (x.isIntent = false → t.player = s.player)) ∧
        ((∀ x ∈ q, x.inTransmission = true ∨ x.body.cls ≤ body.cls) → t.line.queue = q ∧ overrun body.cls)))

/-- R84, R88, R90: a voice-table entry that reaches its expiry is QUIET. When it was the last one TALKING, an IDLE
player with the line ACTIVE claims for the head of its queue, by a TALK_INTENT with the head's priority and the clip's
duration in 100 ms units. A queued entry that reaches its patience deadline leaves the queue and reports EXPIRED.
Taken after its time, the event has the same effect by the model's choice (assumption 12). -/
def Obligations.VoiceAndPatienceExpire : Prop :=
  ∀ (s : State) (n : Nat) (v : VoiceEntry) (e : SayEntry), Ready s →
    let voices := s.player.voices.map fun x => if x.station = n then { x with talking := false, expiry := none } else x
    (v ∈ s.player.voices → v.station = n → (∃ x, v.expiry = some x ∧ x ≤ s.now) →
      (s.player.queue = [] ∨ s.player.state ≠ .idle ∨ s.line.state ≠ .active ∨
          (∃ x ∈ s.player.voices, x.station ≠ n ∧ x.talking = true) →
        exec (.voiceEntryExpiry n) s = .next { s with player.voices := voices }) ∧
      ∀ rest clip, s.player.queue = e :: rest → s.player.state = .idle → s.line.state = .active →
        (∀ x ∈ s.player.voices, x.station ≠ n → x.talking = false) → s.line.queue.length < 8 →
        s.clip? e.clip = some clip →
        ∃ t, exec (.voiceEntryExpiry n) s = .next t ∧
          t.player =
            { s.player with
              voices := voices, queue := rest, current := some e, state := .settling, intentSent := false
              windowEnd := none, claim := s.player.claim + 1, bounced := false } ∧
          t.line.queue =
            insertTx ⟨.talkIntent e.priority (((clip.length + 159) / 160 + 9) / 10), s.now, false, s.player.claim + 1⟩
              s.line.queue ∧
          t = { s with player := t.player, line := t.line, engine.slots := t.engine.slots }) ∧
    (s.impatient e.slot e.clip = some e → NobodyAwaits s .narration →
      ∃ t, exec (.patienceExpiry e.slot e.clip) s = .next t ∧
        t.player = { s.player with queue := s.player.queue.filter fun x => !(x.slot == e.slot && x.clip == e.clip) } ∧
        (∀ i, s.engine.slots[e.slot].mark = e.mark → s.engine.slots[e.slot].run = some i →
          i.sayCount = e.sayNumber → t.engine.slots[e.slot].run = some { i with handle := .expired }) ∧
        t = { s with player := t.player, engine.slots := t.engine.slots })

/-- R80, R93, R94: at the window end with every voice-table entry QUIET the player plays, its first sample sent at once;
with one TALKING it backs off: a TALK_END is handed over and the request returns to its place in the queue. The model's
choice: that the window end is absent while PLAYING and the intent status WAITING after a back-off (assumption 53), and
the effect of an event taken after its time (assumption 12). -/
def Obligations.WindowEndPlaysOrBacksOff : Prop :=
  ∀ (s : State) (e : SayEntry) (w : Tick), Ready s → s.player.state = .settling → s.player.current = some e →
    s.player.intentSent = true → s.player.windowEnd = some w → w ≤ s.now →
    ((∀ v ∈ s.player.voices, v.talking = false) →
      ∃ t, exec .windowEnd s = .next t ∧
        t.player =
          { s.player with
            state := .playing, windowEnd := none, playStart := some s.now, audioOutput := t.player.audioOutput
            samplesSent := t.player.samplesSent } ∧
        (∀ clip, s.clip? e.clip = some clip → 0 < clip.length →
          t.player.samplesSent = 1 ∧
            t.player.audioOutput =
              ((Memory.read s.memory clip.start).toInt * 16 *
                ((clip.gain * s.settings.bayVolume / 1000 : Nat) : Int)).tdiv 1000) ∧
        t = { s with player := t.player, engine.slots := t.engine.slots }) ∧
    ((∃ v ∈ s.player.voices, v.talking = true) → s.now < e.patience →
      (∀ x ∈ s.player.queue, x.slot ≠ e.slot ∨ x.clip ≠ e.clip) → s.player.queue.length < 8 →
      s.line.queue.length < 8 →
      ∃ t, exec .windowEnd s = .next t ∧
        t.player =
          { s.player with
            state := .idle, current := none, intentSent := false, windowEnd := none
            queue := insertSay e s.player.queue } ∧
        t.line.queue = insertTx ⟨.talkEnd, s.now, false, 0⟩ s.line.queue ∧
        t = { s with player := t.player, line := t.line, engine.slots := t.engine.slots })

/-- R15, R19, R95, R98: at the end of a clip or of a fade-out the output is 0, a TALK_END is handed over, and the player
is IDLE with nothing current; a clip that has ended reports DONE, and the slot that AWAITS it moves on to its next step.
The model's choice: that the player's times are absent and its intent status WAITING after these ends (assumption 53),
and the effect of an event taken after its time (assumption 12). -/
def Obligations.ClipAndFadeOutEnd : Prop :=
  ∀ (s : State) (e : SayEntry) (p : Tick), Ready s → s.player.current = some e → s.player.queue = [] →
    s.line.queue.length < 8 →
    let stopped : Player :=
      { s.player with
        state := .idle, current := none, intentSent := false, windowEnd := none, playStart := none
        fadeOutStart := none, audioOutput := 0, samplesSent := 0 }
    let sent : State :=
      { s with player := stopped, line.queue := insertTx ⟨.talkEnd, s.now, false, 0⟩ s.line.queue }
    (∀ clip, s.player.state = .playing → s.player.playStart = some p → s.clip? e.clip = some clip →
      p + (clip.length + 159) / 160 ≤ s.now →
      (NobodyAwaits s .narration →
        ∃ t, exec .clipEnd s = .next t ∧
          (∀ i, s.engine.slots[e.slot].mark = e.mark → s.engine.slots[e.slot].run = some i →
            i.sayCount = e.sayNumber → t.engine.slots[e.slot].run = some { i with handle := .done }) ∧
          t = { sent with engine.slots := t.engine.slots }) ∧
      ∀ i next, s.engine.slots[e.slot].mark = e.mark → i.sayCount = e.sayNumber →
        AwaitsNext s e.slot i .narration next →
        exec .clipEnd s =
          .next (State.setSlot sent e.slot ⟨some { movedOn s i next with handle := .done }, e.mark⟩)) ∧
    (s.player.state = .fadingOut → s.player.fadeOutStart = some p → p + 20 ≤ s.now →
      exec .fadeOutEnd s = .next sent)

/-- R83, R84, R169: a TALK_INTENT from a neighbour of the hearing list, and a TALK_BUSY addressed to this station, make
its voice-table entry TALKING for the time they carry and 200 ticks more. A TALK_BUSY addressed to another station, 1 to
62, makes it TALKING with its expiry unchanged, in every player state; that the expiry of an entry that was QUIET so
stays absent is read by inference (assumption 41). One of any other destination names no station, and changes nothing
but the last-heard time of its sender. A TALK_END makes the entry QUIET. -/
def Obligations.NeighbourTalkIsNoted : Prop :=
  ∀ (s : State) (f : Frame),
    let u := s.hearPeer f.source
    let voices (change : VoiceEntry → VoiceEntry) :=
      s.player.voices.map fun v => if v.station = f.source then change v else v
    (Hears s .talkIntent f → s.player.state = .idle →
      exec (.talkIntentReceived f) s =
        .next { u with
          player.voices := voices fun v => { v with talking := true, expiry := some (s.now + 10 * f.word 1 + 200) } }) ∧
    (Hears s .talkBusy f →
      (1 ≤ f.byte 0 → f.byte 0 ≤ 62 → f.byte 0 = s.settings.station → s.player.state ≠ .settling →
        exec (.talkBusyReceived f) s =
          .next { u with
            player.voices :=
              voices fun v => { v with talking := true, expiry := some (s.now + 10 * f.word 2 + 200) } }) ∧
      (1 ≤ f.byte 0 → f.byte 0 ≤ 62 → f.byte 0 ≠ s.settings.station →
        exec (.talkBusyReceived f) s = .next { u with player.voices := voices fun v => { v with talking := true } }) ∧
      (f.byte 0 = 0 ∨ 62 < f.byte 0 → exec (.talkBusyReceived f) s = .next u)) ∧
    (Hears s .talkEnd f →
      s.player.queue = [] ∨ s.player.state ≠ .idle ∨ s.line.state ≠ .active ∨
        (∃ v ∈ s.player.voices, v.station ≠ f.source ∧ v.talking = true) →
      exec (.talkEndReceived f) s =
        .next { u with player.voices := voices fun v => { v with talking := false, expiry := none } })

/-- R92, R93, R96: a TALK_INTENT heard while PLAYING or FADING_OUT is answered with a TALK_BUSY that carries the
priority and the time left of the clip or of the fade-out. Heard while SETTLING from a neighbour of higher priority, or
of equal priority and a lower station number, it ends the claim, as does a TALK_BUSY addressed to this station by a
neighbour. A TALK_INTENT of this station that still waits is withdrawn; when it is in transmission or sent, a TALK_END
is handed over in its place. The request returns to the queue. Any other TALK_INTENT heard while SETTLING, of a claim
that does not outrank this one or from a station with no entry, is noted in the voice table and ends nothing; a
TALK_BUSY from a station with no entry has no effect. That the intent status is WAITING after a back-off is the model's
choice (assumption 53). -/
def Obligations.IntentHeardWhilePlayingOrSettling : Prop :=
  ∀ (s : State) (f : Frame) (e : SayEntry), s.player.current = some e →
    let u := s.hearPeer f.source
    let voices (until_ : Tick) : List VoiceEntry :=
      s.player.voices.map fun v => if v.station = f.source then { v with talking := true, expiry := some until_ } else v
    let intentUntil := s.now + 10 * f.word 1 + 200
    let answers (left : Nat) : Prop :=
      exec (.talkIntentReceived f) s =
        .next { u with
          player.voices := voices intentUntil
          line.queue :=
            insertTx ⟨.talkBusy f.source e.priority (max 1 ((left + 9) / 10)), s.now, false, 0⟩ s.line.queue }
    let outranks : Prop := e.priority < f.byte 0 % 8 ∨ (e.priority = f.byte 0 % 8 ∧ f.source < s.settings.station)
    let listed : Prop := ∃ v ∈ s.player.voices, v.station = f.source
    let backsOff (c : Instr) (until_ : Tick) : Prop :=
      ∃ t, exec c s = .next t ∧
        t.player =
          { s.player with
            voices := voices until_, state := .idle, current := none, intentSent := false, windowEnd := none
            queue := insertSay e s.player.queue } ∧
        t.line.queue =
          (if s.player.intentSent = false ∧ s.intentInTransmission s.player.claim = false then
            s.line.queue.filter fun x => !(x.isIntent && x.claim == s.player.claim && !x.inTransmission)
          else insertTx ⟨.talkEnd, s.now, false, 0⟩ s.line.queue) ∧
        t = { u with player := t.player, line.queue := t.line.queue, engine.slots := t.engine.slots }
    (Hears s .talkIntent f → s.line.queue.length < 8 →
      (∀ clip p, s.player.state = .playing → s.player.playStart = some p → s.clip? e.clip = some clip →
        answers (p + (clip.length + 159) / 160 - s.now)) ∧
      ∀ fo, s.player.state = .fadingOut → s.player.fadeOutStart = some fo →
        (s.player.playStart = none → answers (fo + 20 - s.now)) ∧
        ∀ clip p, s.player.playStart = some p → s.clip? e.clip = some clip →
          answers (min (fo + 20 - s.now) (p + (clip.length + 159) / 160 - s.now))) ∧
    (s.player.state = .settling →
      (s.player.intentSent = true ∨ s.intentInTransmission s.player.claim = true → s.line.queue.length < 8) →
      listed → s.now < e.patience → (∀ x ∈ s.player.queue, x.slot ≠ e.slot ∨ x.clip ≠ e.clip) →
      s.player.queue.length < 8 →
      (Hears s .talkIntent f → outranks → backsOff (.talkIntentReceived f) intentUntil) ∧
      (Hears s .talkBusy f → 1 ≤ f.byte 0 → f.byte 0 ≤ 62 → f.byte 0 = s.settings.station →
        backsOff (.talkBusyReceived f) (s.now + 10 * f.word 2 + 200))) ∧
    (s.player.state = .settling →
      (Hears s .talkIntent f → ¬listed ∨ ¬outranks →
        exec (.talkIntentReceived f) s = .next { u with player.voices := voices intentUntil }) ∧
      (Hears s .talkBusy f → ¬listed → exec (.talkBusyReceived f) s = .next u))

/-! ## Model drives -/

/-- R104, R107, R108, R109: a change of one encoder line is one count, in the sense that the leading line and the
encoder direction give, and a change of both or of none is not. A count moves a homed drive by 1 in every state and
restarts the timers that run; at 0 or 65535 it is a LIMIT fault instead. A count of a homing run adds to its travel, and
at 65535 with the output driving it is a LIMIT fault. In RUN a move takes its class again at each count, and one that
brings it into its band brakes it. In BRAKE a count that leaves the band drives again at class 0: on in its direction
short of the target, and past it reversed, the fourth time a SETTLE fault. Which sense is up is a free value (assumption
7); that class 0 holds until the next count is read by inference (assumption 23), and that a braking homing run stays at
a travel of 65535, the blanking end in whole ms, and that none is kept in BRAKE, are the model's choice (assumptions 43,
50, 51). -/
def Obligations.CountsMoveDrive : Prop :=
  ∀ (s : State) (d : Fin 4) (a b : Bool), Ready s → s.drives[d].state ≠ .track →
    let r := s.drives[d]
    let c := s.settings.drives[d]
    let one := (r.encA != a) != (r.encB != b)
    let up := countsUp c.reversed (aLeads r.encA a b)
    let position := if up then r.position + 1 else r.position - 1
    let counted : Drive :=
      { r with
        encA := a, encB := b, stallTimer := r.stallTimer.map (fun _ => s.now + c.stallTime)
        stillTimer := r.stillTimer.map (fun _ => s.now + 5) }
    let moved : Drive := { counted with position := position }
    let becomes (r' : Drive) : Prop := exec (.encoderCount d a b) s = .next (s.setDrive d r')
    let faults (r' : Drive) (kind : FaultKind) : Prop :=
      ∃ t, exec (.encoderCount d a b) s = .next t ∧ t.drives[d] = faultedDrive r' ∧
        (∀ j : Fin 4, j ≠ d → t.drives[j] = s.drives[j]) ∧
        ∃ x ∈ t.faults.records, x.kind = kind ∧ x.detail = BitVec.ofNat 8 d.val
    let alone : Prop := NobodyAwaits s (.drive d) ∧ NothingElseWaits s d
    let inside : Prop := (up = true → r.position < 65535) ∧ (up = false → 0 < r.position)
    let edge : Prop := (up = true → r.position = 65535) ∧ (up = false → r.position = 0)
    let inBand : Prop := position ≤ r.target + c.tolerance ∧ r.target ≤ position + c.tolerance
    let short : Prop := if r.up then position < r.target else r.target < position
    (one = false → becomes { r with encA := a, encB := b }) ∧
    (one = true → r.homed = false → r.state ≠ .homing → becomes counted) ∧
    (one = true → r.homed = true → r.state ≠ .homing → r.state ≠ .moving → inside → becomes moved) ∧
    (one = true → r.homed = true → r.state ≠ .homing → r.state ≠ .faulted → edge → alone → faults counted .limit) ∧
    (one = true → r.state = .homing → r.travel < 65534 → becomes { counted with travel := r.travel + 1 }) ∧
    (one = true → r.state = .homing → 65534 ≤ r.travel →
      (r.braking = false → alone → faults { counted with travel := 65535 } .limit) ∧
      (r.braking = true → becomes { counted with travel := 65535 })) ∧
    (one = true → r.homed = true → r.state = .moving → inside →
      (r.braking = false → inBand → becomes (brakingDrive moved s)) ∧
      (r.braking = false → ¬inBand →
        becomes
          { moved with
            classInForce :=
              if r.reversals ≠ 0 ∨ (position ≤ r.target + c.approach ∧ r.target ≤ position + c.approach) then 0
              else r.speedClass }) ∧
      (r.braking = true → inBand → becomes moved) ∧
      (r.braking = true → ¬inBand → short → becomes (drivingDrive { moved with classInForce := 0 } c s)) ∧
      (r.braking = true → ¬inBand → ¬short → r.reversals < 3 →
        becomes
          (drivingDrive { moved with classInForce := 0, up := !r.up, reversals := r.reversals + 1 } c s)) ∧
      (r.braking = true → ¬inBand → ¬short → 3 ≤ r.reversals → alone → faults moved .settle))

/-- R19, R69, R107, R108: a braking drive that has stood still for 5 ticks, homing or inside its band, is IDLE with its
output off. A homing run ends homed at position 0. Its watts leave the demands, and a slot AWAITING the drive moves on
to its next step. That the requester is kept, and that an AWAIT is completed whoever asked for the run, are read by
inference (assumptions 14, 25). That no blanking end is kept, and that the event has the same effect taken after
its time, are the model's choice (assumptions 12, 51). -/
def Obligations.DriveComesToRest : Prop :=
  ∀ (s : State) (d : Fin 4) (e : Tick), Ready s → s.drives[d].braking = true → s.drives[d].stillTimer = some e →
    e ≤ s.now → NothingWaits s →
    let r := s.drives[d]
    let c := s.settings.drives[d]
    let homing := decide (r.state = .homing)
    let rests (engine : SceneEngine) : Prop :=
      ∃ t, exec (.stillTimerExpiry d) s = .next t ∧
        t.drives[d] =
          { r with
            state := .idle, position := if homing then 0 else r.position, homed := homing || r.homed, braking := false
            stillTimer := none, stallTimer := none, samples := [], blankingEnd := none, brakeUntil := none } ∧
        (∀ j : Fin 4, j ≠ d → t.drives[j] = s.drives[j]) ∧ t.share.startedDemand = t.startedDemand ∧
        t.share.motorDemand = t.motorDemand ∧ t.engine = engine ∧ t.track = s.track ∧ t.player = s.player
    r.state = .homing ∨ (r.state = .moving ∧ r.position ≤ r.target + c.tolerance ∧
      r.target ≤ r.position + c.tolerance) →
    (NobodyAwaits s (.drive d) → rests s.engine) ∧
    ∀ j i next, AwaitsAlone s j i (.drive d) next →
      rests (s.setSlot j ⟨some (movedOn s i next), s.engine.slots[j].mark⟩).engine

/-- R19, R22, R23, R111, R112, R114, R117, R125, R127: a stall timer that expires faults the drive STALL, and a third
current sample in a row above the limit faults it OVERCURRENT. A faulted drive is off, unhomed, with no request and no
requester. A slot AWAITING it completes FAILED: under CONTINUE it moves on to its next step, and under ABANDON it
becomes FREE, its owner records cleared. A sample before the blanking end is not kept; any other joins the last three.
An overcurrent of the segment stops it and leaves its block FAULTED, with no TRACK_LOST record, a sender releasing with
FAILED. Clauses that are the model's choice: an AWAIT fails whoever asked for the run (assumption 14, by inference), the
fields of a handover are cleared at FAULTED (assumption 47), the blanking end is reckoned in whole ms (assumption 50),
a stopped segment keeps none (assumption 51), and an event taken after its time has the same effect (assumption 12). -/
def Obligations.DriveFaultsStopIt : Prop :=
  ∀ (s : State) (d : Fin 4) (code : BitVec 10), Ready s →
    let r := s.drives[d]
    let limit := s.settings.drives[d].currentLimit
    let kept := (r.samples ++ [code.toNat]).drop (r.samples.length - 2)
    let tripped : Prop := kept.length = 3 ∧ ∀ x ∈ kept, limit < x
    let driving : Prop := (r.state = .moving ∨ r.state = .homing) ∧ r.braking = false
    let segmentOn : Prop := r.state = .track ∧ s.track.running = true
    let faulted (kind : FaultKind) (t : State) : Prop :=
      t.drives[d] = faultedDrive r ∧
        (∀ j : Fin 4, j ≠ d → t.drives[j] = s.drives[j]) ∧ (∀ e ∈ t.share.admissions, e.drive ≠ d) ∧
        t.share.motorDemand = t.motorDemand ∧
        ∃ x ∈ t.faults.records, x.kind = kind ∧ x.detail = BitVec.ofNat 8 d.val
    (∀ e, driving → r.stallTimer = some e → e ≤ s.now → NothingElseWaits s d →
      (NobodyAwaits s (.drive d) → ∃ t, exec (.stallTimerExpiry d) s = .next t ∧ faulted .stall t ∧ t.engine = s.engine) ∧
      ∀ j i next sc, AwaitsAlone s j i (.drive d) next → s.scene? i.scene = some sc →
        let mark := s.engine.slots[j].mark
        (sc.abandon = false →
          ∃ t, exec (.stallTimerExpiry d) s = .next t ∧ faulted .stall t ∧
            t.engine = (s.setSlot j ⟨some (movedOn s i next), mark⟩).engine) ∧
        (sc.abandon = true → s.engine.trackRequester ≠ some ⟨j, mark⟩ → s.player.state = .idle → NoRetake s sc →
          ∃ t, exec (.stallTimerExpiry d) s = .next t ∧ faulted .stall t ∧
            t.engine =
              (State.setSlot
                { s with
                  engine.channelOwners := s.engine.channelOwners.map (ownerAfter j)
                  engine.driveOwners := s.engine.driveOwners.map (ownerAfter j) } j ⟨none, mark⟩).engine)) ∧
    (∀ e, driving ∨ segmentOn → r.blankingEnd = some e → s.clockMs < e → exec (.currentSample d code) s = .next s) ∧
    (driving ∨ segmentOn → (∀ e, r.blankingEnd = some e → e ≤ s.clockMs) →
      (¬tripped → exec (.currentSample d code) s = .next (s.setDrive d { r with samples := kept })) ∧
      (tripped → driving → NobodyAwaits s (.drive d) → NothingElseWaits s d →
        ∃ t, exec (.currentSample d code) s = .next t ∧ faulted .overcurrent t) ∧
      (tripped → segmentOn → d = 3 → s.inHandover = true → NobodyAwaits s .track → NothingElseWaits s 3 →
        s.line.queue.length < 8 →
        ∃ t, exec (.currentSample d code) s = .next t ∧ t.track = endedTrack s.track .faulted ∧
          t.drives[(3 : Fin 4)] =
            { r with
              braking := false, stillTimer := none, stallTimer := none, samples := [], blankingEnd := none
              brakeUntil := none } ∧
          t.share.motorDemand = t.motorDemand ∧ t.engine.trackRequester = none ∧
          (∃ x ∈ t.faults.records, x.kind = .overcurrent ∧ x.detail = 3) ∧
          (∀ x ∈ t.faults.records, x.kind = .trackLost → x ∈ s.faults.records) ∧
          (s.track.state = .sending → ∃ x ∈ t.line.queue, x.body = .blockRelease (s.track.peer.getD 0) .failed)))

/-- R107, R113, R116, R117: a switch that closes on a drive at rest has no further effect; the home switch brakes a
homing run, and any other closing of a running drive is a LIMIT fault. An opening is noted, and the brake of a halted
drive ends. That a braking run keeps no blanking end, and that the end of a brake has the same effect taken after its
time, are the model's choice (assumptions 12, 51). -/
def Obligations.SwitchesAndHaltBrake : Prop :=
  ∀ (s : State) (d : Fin 4) (which : Switch), Ready s →
    let r := s.drives[d]
    let noted (closed : Bool) : Drive :=
      if which = .homeSwitch then { r with homeClosed := closed } else { r with endClosed := closed }
    let was := if which = .homeSwitch then r.homeClosed else r.endClosed
    (r.state ≠ .track →
      (was = true → exec (.switchClose d which) s = .next s) ∧
      (was = false → (r.state ≠ .homing ∧ r.state ≠ .moving) ∨
          (r.state = .homing ∧ which = .homeSwitch ∧ r.braking = true) →
        exec (.switchClose d which) s = .next (s.setDrive d (noted true))) ∧
      (was = false → r.state = .homing → which = .homeSwitch → r.braking = false →
        exec (.switchClose d which) s =
          .next (s.setDrive d
            { r with
              homeClosed := true, braking := true, stillTimer := some (s.now + 5), stallTimer := none, samples := []
              blankingEnd := none, brakeUntil := none })) ∧
      (was = false → r.state = .moving ∨ (r.state = .homing ∧ which = .endSwitch) → NobodyAwaits s (.drive d) →
        NothingElseWaits s d →
        ∃ t, exec (.switchClose d which) s = .next t ∧ t.drives[d].state = .faulted ∧ t.drives[d].homed = false ∧
          ∃ x ∈ t.faults.records, x.kind = .limit ∧ x.detail = BitVec.ofNat 8 d.val) ∧
      exec (.switchOpen d which) s = .next (s.setDrive d (noted false))) ∧
    (∀ e, r.brakeUntil = some e → e ≤ s.now →
      exec (.haltBrakeEnd d) s = .next (s.setDrive d { r with brakeUntil := none }))

/-! ## The shared track -/

/-- R19, R22, R122, R140: while ASKED, an expired retry timer is set 100 ticks on and the ask is sent again unless one
still waits; the give-up takes the block back to HOLDING with a BLOCK_RELEASE(CANCEL), the waiting ask of this exchange
withdrawn. The give-up fails the send for the slot that is the track requester: under CONTINUE it carries on where it
stands, under ABANDON its instance is cancelled. A slot that AWAITS the track fails there, once. That an ask of an older
exchange stays in the queue at a give-up, that it counts as waiting for a retry, the order of the release and the
withdrawal, and that an AWAIT fails whoever asked for the send, are read by inference (assumptions 14, 17, 46, 49).
Taken after its time, the event has the same effect by the model's choice (assumption 12). -/
def Obligations.AskRetriesAndGivesUp : Prop :=
  ∀ (s : State) (peer : Nat) (e : Tick), Ready s → s.track.state = .askingAsked → s.track.peer = some peer →
    s.line.queue.length < 8 → e ≤ s.now →
    (s.track.retryTimer = some e →
      exec .retryTimerExpiry s =
        .next { s with
          track.retryTimer := some (s.now + 100)
          line.queue :=
            if s.askWaiting then s.line.queue
            else insertTx ⟨.blockAsk peer s.track.speedClass.val, s.now, false, s.track.exchange⟩ s.line.queue }) ∧
    (s.track.giveUpTimer = some e → NothingElseWaits s 3 → s.player.bounced = false →
      let asked (k : Fin 4) : Prop := s.engine.trackRequester = some ⟨k, s.engine.slots[k].mark⟩
      FailureReaches s .track asked (fun _ => True) fun engine =>
        ∃ t, exec .giveUpTimerExpiry s = .next t ∧
          t.track =
            { s.track with
              state := .holding, peer := none, grantTimer := .stopped, retryTimer := none, giveUpTimer := none } ∧
          (∃ x ∈ t.line.queue, x.body = .blockRelease peer .cancel) ∧
          (∀ x ∈ t.line.queue, x.isAsk = true → x.inTransmission = true ∨ x.claim ≠ s.track.exchange) ∧
          (∀ x ∈ s.line.queue, x.isAsk = true → x.inTransmission = true ∨ x.claim ≠ s.track.exchange →
            x ∈ t.line.queue) ∧
          t.share.motorDemand = t.motorDemand ∧ t.engine = { engine with trackRequester := none } ∧
          t.drives = s.drives)

/-- R18, R19, R22, R125, R127: a grant timer that expires leaves the block FAULTED with its segment stopped and
TRACK_LOST recorded, a sender releasing with FAILED; a slot that AWAITS the track fails by its own policy. The end of
the settle run leaves the block HOLDING with its segment stopped, and a slot that AWAITS the track moves on to its next
step. The track requester is none from then on. That the fields of the handover are cleared at FAULTED too is the
model's choice (assumption 47), as is the effect of an event taken after its time (assumption 12); that a lost carriage
is no failure of a slot that does not wait, and that an AWAIT completes whoever asked for the send, are read by
inference (assumptions 14, 30). -/
def Obligations.GrantAndSettleEnd : Prop :=
  ∀ (s : State) (peer : Nat) (e : Tick), Ready s → s.track.peer = some peer → s.line.queue.length < 8 → e ≤ s.now →
    NothingElseWaits s 3 →
    (s.track.state = .sending ∨ s.track.state = .receiving → s.track.grantTimer = .expiring e →
      FailureReaches s .track (fun _ => False) (fun _ => True) fun engine =>
        ∃ t, exec .grantTimerExpiry s = .next t ∧ t.track = endedTrack s.track .faulted ∧
          (∃ x ∈ t.faults.records, x.kind = .trackLost ∧ x.detail = BitVec.ofNat 8 peer) ∧
          (s.track.state = .sending → ∃ x ∈ t.line.queue, x.body = .blockRelease peer .failed) ∧
          t.share.motorDemand = t.motorDemand ∧ t.engine = { engine with trackRequester := none }) ∧
    (s.track.state = .receiving → s.track.settle = .expiring e →
      let completes (engine : SceneEngine) : Prop :=
        ∃ t, exec .settleEnd s = .next t ∧ t.track = endedTrack s.track .holding ∧
          t.share.motorDemand = t.motorDemand ∧ t.engine = { engine with trackRequester := none }
      (NobodyAwaits s .track → completes s.engine) ∧
      ∀ j i next, AwaitsAlone s j i .track next →
        completes (s.setSlot j ⟨some (movedOn s i next), s.engine.slots[j].mark⟩).engine)

/-- R71, R105, R117, R120, R126, R130: an ask of the upstream station is answered by the block's state. EMPTY and not
HALTED, the block grants when its segment passes its trial admission, and enters RECEIVING with the segment running,
which drives UP at the duty of the ask's class; else it answers HELD(POWER). RECEIVING, it grants its own peer again. In
any other case it answers HELD(BUSY). An ask of another station, to another station, with track mode off or with the
line not ACTIVE has no effect here. The blanking end in whole ms is the model's choice (assumption 50). -/
def Obligations.AskIsAnswered : Prop :=
  ∀ (s : State) (f : Frame), Hears s .blockAsk f →
    let u := s.hearPeer f.source
    let taken : Prop := s.settings.trackMode = true ∧ f.byte 0 = s.settings.station ∧
      f.source = s.settings.upstream ∧ s.line.state = .active
    let own := s.share.ownDemand + s.driveWatts 3
    let passes : Prop := s.share.startedDemand + s.driveWatts 3 ≤
      allowance .active own s.share.peerSum (milli s.settings.capacity) (milli s.settings.baseShare)
    let answer (body : FrameBody) : State :=
      { u with line.queue := insertTx ⟨body, s.now, false, 0⟩ s.line.queue }
    (¬taken → exec (.blockAskReceived f) s = .next u) ∧
    (taken → s.line.queue.length < 8 →
      (s.track.state = .empty → s.halt = none → passes → s.share.admissions = [] →
        ∃ t, exec (.blockAskReceived f) s = .next t ∧ t.track.state = .receiving ∧ t.track.peer = some f.source ∧
          t.track.speedClass.val = f.byte 1 % 4 ∧ t.track.running = true ∧
          t.track.grantTimer = .expiring (s.now + 2000) ∧ (∃ x ∈ t.line.queue, x.body = .blockGrant f.source) ∧
          t.share.startedDemand = t.startedDemand ∧ t.drives[(3 : Fin 4)] = runningSegment s ∧
          (s.drives[(3 : Fin 4)].state = .track →
            let duties := s.settings.drives[(3 : Fin 4)].duties
            t.driveOutput 3 =
              .drive true
                (if duties[t.track.speedClass] = 0 then duties[(0 : Fin 4)] else duties[t.track.speedClass]))) ∧
      (s.track.state = .empty → s.halt = none → ¬passes →
        exec (.blockAskReceived f) s = .next (answer (.blockHeld f.source .power))) ∧
      (s.track.state = .receiving → s.track.peer = some f.source →
        exec (.blockAskReceived f) s = .next (answer (.blockGrant f.source))) ∧
      ((s.track.state = .empty ∧ s.halt ≠ none) ∨ (s.track.state = .receiving ∧ s.track.peer ≠ some f.source) ∨
          (s.track.state ≠ .empty ∧ s.track.state ≠ .receiving) →
        exec (.blockAskReceived f) s = .next (answer (.blockHeld f.source .busy))))

/-- R72, R117, R120, R122, R124, R128: a BLOCK_GRANT of the downstream station taken while ASKED starts the sending, its
segment running UP when it passes its start test, and waiting in the admission list otherwise; while SENDING it has no
effect, and otherwise it is answered CANCEL. A BLOCK_HELD taken while ASKED sets the retry timer 100 ticks on. A
BLOCK_RELEASE of the upstream station taken while RECEIVING is ignored for DONE, leaves the block EMPTY for CANCEL, and
FAULTED with TRACK_LOST for FAILED. That the fields of the handover are cleared at FAULTED too, and the blanking end of
the segment in whole ms, are the model's choice (assumptions 47, 50). -/
def Obligations.TrackRepliesAreTaken : Prop :=
  ∀ (s : State) (f : Frame),
    let u := s.hearPeer f.source
    let here : Prop := s.settings.trackMode = true ∧ f.byte 0 = s.settings.station
    let w := s.driveWatts 3
    (Hears s .blockGrant f →
      (¬(here ∧ f.source = s.settings.downstream) → exec (.blockGrantReceived f) s = .next u) ∧
      (here → f.source = s.settings.downstream →
        (s.track.state = .sending → exec (.blockGrantReceived f) s = .next u) ∧
        (s.track.state ≠ .sending → s.track.state ≠ .askingAsked → s.line.queue.length < 8 →
          exec (.blockGrantReceived f) s =
            .next { u with
              line.queue := insertTx ⟨.blockRelease f.source .cancel, s.now, false, 0⟩ s.line.queue }) ∧
        (s.track.state = .askingAsked → s.player.bounced = false →
          let sends (running : Bool) (t : State) : Prop :=
            exec (.blockGrantReceived f) s = .next t ∧
            t.track =
              { s.track with
                state := .sending, running := running, retryTimer := none, giveUpTimer := none
                grantTimer := .expiring (s.now + 2000), departSeen := s.beamBroken .depart } ∧
            (∀ x ∈ t.line.queue, x.isAsk = true → x.inTransmission = true ∨ x.claim ≠ s.track.exchange) ∧
            t.share.startedDemand = t.startedDemand ∧ t.player = s.player ∧ t.engine = s.engine
          (s.startedDemand + w ≤ s.share.allowance → ∃ t, sends true t ∧ t.drives[(3 : Fin 4)] = runningSegment s) ∧
          (s.share.allowance < s.startedDemand + w → ¬fitsWith s s.motorDemand s.startedDemand w →
            s.share.admissions = [] →
            ∃ t, sends s.track.running t ∧ t.share.admissions = [⟨.segmentStart, 3, w, s.now⟩])))) ∧
    (Hears s .blockHeld f →
      exec (.blockHeldReceived f) s =
        .next (if s.settings.trackMode = true ∧ f.byte 0 = s.settings.station ∧ f.source = s.settings.downstream ∧
            s.track.state = .askingAsked then { u with track.retryTimer := some (s.now + 100) } else u)) ∧
    (Hears s .blockRelease f →
      (¬(here ∧ f.source = s.settings.upstream ∧ s.track.state = .receiving) ∨ f.byte 1 = 0 →
        exec (.blockReleaseReceived f) s = .next u) ∧
      (here → f.source = s.settings.upstream → s.track.state = .receiving → f.byte 1 ≠ 0 → NobodyAwaits s .track →
        NothingElseWaits s 3 → ∀ peer, s.track.peer = some peer →
        ∃ t, exec (.blockReleaseReceived f) s = .next t ∧
          t.track = endedTrack s.track (if f.byte 1 = 1 then .empty else .faulted) ∧
          (f.byte 1 ≠ 1 → ∃ x ∈ t.faults.records, x.kind = .trackLost ∧ x.detail = BitVec.ofNat 8 peer) ∧
          t.share.motorDemand = t.motorDemand))

/-! ## The gallery halt -/

/-- R24, R53, R99, R116, R123, R130, R149, R150: a HALT frame taken while RUNNING halts the station, whatever it was
doing: every scene, claim, drive and ask is ended, no owner is left, and every used channel fades to its halt level over
100 ticks. A drive that runs brakes for 5 ticks, a MOVING one IDLE from then on and a HOMING one UNHOMED; one that waits
for power is IDLE or UNHOMED by the kind of its request; neither has a requester, and any other drive is left as it is.
A segment that runs brakes for 5 ticks too. A player that is not IDLE hands over a TALK_END; an ask is withdrawn with
BLOCK_RELEASE(CANCEL); a handover stops its segment, its grant timer and settle run frozen with the ticks they had left.
Taken while HALTED the frame changes nothing but the last-heard time of its sender. That no blanking end is kept is the
model's choice (assumption 51). -/
def Obligations.HaltFrameHaltsStation : Prop :=
  ∀ (s : State) (f : Frame), Hears s .halt f → SegmentSafe s →
    (s.halt ≠ none → exec (.haltReceived f) s = .next (s.hearPeer f.source)) ∧
    (s.halt = none →
      let frozen (x : HaltTimer) : HaltTimer :=
        match x with
        | .expiring e => .frozen (e - s.now)
        | .stopped => .stopped
        | .frozen left => .frozen left
      ∃ t, exec (.haltReceived f) s = .next t ∧ t.halt = some .line ∧ HaltSafe t ∧
        (∀ c : Fin 12, t.engine.channelOwners[c] = none) ∧ (∀ d : Fin 4, t.engine.driveOwners[d] = none) ∧
        (∀ c : Fin 12, s.settings.channels[c].rating ≠ 0 →
          t.lamps[c].fading = true ∧ t.lamps[c].fadeStart = s.lamps[c].programmed ∧
            t.lamps[c].target = s.settings.channels[c].haltLevel ∧ t.lamps[c].steps = 100 ∧
            t.lamps[c].requester = none) ∧
        (∀ d : Fin 4, s.drives[d].state ≠ .track → (d = 3 → s.track.running = false) →
          let r := s.drives[d]
          let braked : Drive :=
            { r with
              braking := false, stillTimer := none, stallTimer := none, samples := [], blankingEnd := none
              brakeUntil := some (s.now + 5), requester := none }
          t.drives[d] =
            match r.state with
            | .moving => { braked with state := .idle }
            | .homing => { braked with state := .unhomed }
            | .pendingPower =>
              { r with
                state := if r.pending = some .home then .unhomed else .idle, pending := none, requester := none }
            | _ => r) ∧
        (s.drives[(3 : Fin 4)].state = .track → s.track.running = true →
          t.drives[(3 : Fin 4)] =
            { s.drives[(3 : Fin 4)] with samples := [], blankingEnd := none, brakeUntil := some (s.now + 5) }) ∧
        (s.inHandover = true →
          t.track =
            { s.track with
              running := false, grantTimer := frozen s.track.grantTimer, settle := frozen s.track.settle }) ∧
        (s.asking = true → t.track.state = .holding ∧ t.track.peer = none ∧ t.engine.trackRequester = none) ∧
        (s.line.queue.length < 7 →
          (s.player.state ≠ .idle → ∃ x ∈ t.line.queue, x.body = .talkEnd ∧ x.age = s.now) ∧
          (s.asking = true →
            ∃ x ∈ t.line.queue, x.body = .blockRelease (s.track.peer.getD 0) .cancel ∧ x.age = s.now)) ∧
        (∃ x ∈ t.faults.records, x.kind = .halted ∧ x.detail = 1) ∧
        t.inputs.occupancy = s.inputs.occupancy ∧ t.memory = s.memory)

/-- R72, R131, R151, R152: a RESUME frame taken while HALTED with no STOP input held ends the halt. A handover goes on
with a fresh grant timer of 2000 ticks, but stopped when the carriage has passed the ARRIVE beam, and the settle run with
the ticks it had left; its segment runs again when it passes its start test, and otherwise waits in the admission list.
With a STOP input held the frame is answered with a HALT frame instead. During joining, in line state SILENT too, it
clears the joining-halt flag; that SILENT is included is read by inference (assumption 32). -/
def Obligations.ResumeFrameLeavesHalt : Prop :=
  ∀ (s : State) (f : Frame), Hears s .resume f →
    let u : State :=
      { s.hearPeer f.source with
        line.joiningHalt := if s.line.joiningTimer.isSome then false else s.line.joiningHalt }
    let w := s.driveWatts 3
    let thawed : HaltTimer :=
      match s.track.settle with
      | .frozen left => .expiring (s.now + left)
      | .stopped => .stopped
      | .expiring e => .expiring e
    let resumed (running : Bool) (t : State) : Prop :=
      exec (.resumeReceived f) s = .next t ∧ t.halt = none ∧
        t.track =
          { s.track with
            running := running, settle := thawed
            grantTimer :=
              if s.track.state = .receiving ∧ s.track.arriveSeen = true ∧ s.beamBroken .arrive = false then .stopped
              else .expiring (s.now + 2000) } ∧
        t.engine = s.engine ∧ t.player = s.player ∧ t.inputs = s.inputs
    (s.halt = none → exec (.resumeReceived f) s = .next u) ∧
    (s.halt ≠ none → s.stopLevel = true → s.line.queue.length < 8 →
      exec (.resumeReceived f) s =
        .next { u with line.queue := insertTx ⟨.halt .stopInput, s.now, false, 0⟩ s.line.queue }) ∧
    (s.halt ≠ none → s.stopLevel = false →
      (s.inHandover = false →
        ∃ t, exec (.resumeReceived f) s = .next t ∧ t.halt = none ∧ t.track = s.track ∧ t.drives = s.drives ∧
          t.lamps = s.lamps ∧ t.engine = s.engine ∧ t.player = s.player ∧ t.inputs = s.inputs) ∧
      (s.inHandover = true → s.startedDemand + w ≤ s.share.allowance → ∃ t, resumed true t) ∧
      (s.inHandover = true → s.share.allowance < s.startedDemand + w →
        ¬fitsWith s s.motorDemand s.startedDemand w → s.share.admissions = [] →
        ∃ t, resumed s.track.running t ∧ t.share.admissions = [⟨.segmentStart, 3, w, s.now⟩]))

/-- R149: while the station is HALTED no step starts a scene, a narration, a drive or the track segment; and the
segment runs, or waits to run, only while its block hands a carriage over. Both hold after every step from a state in
which they hold. -/
def Obligations.HaltedStationStaysAtRest : Prop :=
  ∀ s t : State, Settled s → SegmentSafe s → HaltSafe s → step s = .next t → SegmentSafe t ∧ HaltSafe t

/-! ## The gallery line -/

/-- R143, R144, R145, R61, R152: in every line state but OFF, JOINING among them, a LOAD of the own supply group updates
its station's entry or makes one while the table has room; a LOAD of another group removes the entry; an entry not heard
for 600 ticks is removed. Every other entry stays, and the peer sum is that of the table. In a full table the entry
heard longest ago, the lowest station number of equals, gives way when it has not been heard for 200 ticks; else
PEER_FULL is recorded, once for each station. While the joining timer runs, a LOAD of any group with the halted flag
sets the joining-halt flag. That the eviction and the new entry hand the sum over one after the other, and that a SILENT
line is included, are read by inference (assumptions 21, 32); the effect of an event taken after its time is the model's
choice (assumption 12). -/
def Obligations.LoadsKeepPeerTable : Prop :=
  ∀ (s : State) (f : Frame),
    let n := f.source
    let others := s.line.peers.filter fun p => p.station != n
    let u : State :=
      { s with
        line.joiningHalt := s.line.joiningHalt || (s.line.joiningTimer.isSome && decide (f.byte 3 % 2 = 1)) }
    (Hears s .load f → NothingWaits s →
      (∃ t, exec (.loadReceived f) s = .next t ∧ t.line.joiningHalt = u.line.joiningHalt ∧
        t.line.joiningTimer = s.line.joiningTimer) ∧
      (f.byte 2 % 8 = s.settings.group → s.hasPeer n = true ∨ s.line.peers.length < 32 →
        ∃ t, exec (.loadReceived f) s = .next t ∧
          (∃ p ∈ t.line.peers, p = ⟨n, f.word 0, s.now⟩) ∧ (t.line.peers.filter fun p => p.station != n) = others ∧
          t.share.peerSum = t.peerSum ∧ t.engine = s.engine ∧ t.drives = s.drives) ∧
      (f.byte 2 % 8 = s.settings.group → s.hasPeer n = false → s.line.peers.length = 32 →
        (∀ p ∈ s.line.peers, s.now ≤ p.lastHeard + 200) →
        exec (.loadReceived f) s =
          .next (if n ∈ s.line.peerFull then u.hearPeer n
            else State.recordFault { u.hearPeer n with line.peerFull := n :: s.line.peerFull } .peerFull n)) ∧
      (∀ p, f.byte 2 % 8 = s.settings.group → s.hasPeer n = false → s.line.peers.length = 32 → p ∈ s.line.peers →
        (∀ q ∈ s.line.peers,
          p.lastHeard < q.lastHeard ∨ (p.lastHeard = q.lastHeard ∧ p.station ≤ q.station)) →
        p.lastHeard + 200 < s.now →
        ∃ t, exec (.loadReceived f) s = .next t ∧
          t.line.peers = (s.line.peers.filter fun q => q.station != p.station) ++ [⟨n, f.word 0, s.now⟩] ∧
          t.share.peerSum = t.peerSum ∧ t.engine = s.engine ∧ t.drives = s.drives) ∧
      (f.byte 2 % 8 ≠ s.settings.group →
        ∃ t, exec (.loadReceived f) s = .next t ∧ t.line.peers = others ∧
          (s.hasPeer n = true → t.share.peerSum = t.peerSum) ∧ t.engine = s.engine ∧ t.drives = s.drives)) ∧
    ∀ m p, Ready s → NothingWaits s → p ∈ s.line.peers → p.station = m → p.lastHeard + 600 ≤ s.now →
      ∃ t, exec (.peerAgeOut m) s = .next t ∧ t.line.peers = (s.line.peers.filter fun q => q.station != m) ∧
        t.share.peerSum = t.peerSum ∧ t.engine = s.engine ∧ t.drives = s.drives

/-- R91, R141, R147: a received frame that fails a check has no effect, whatever its kind, nor has any while the show
does not run or the line is OFF. A valid frame that bears the own number, read while not transmitting, records
DUPLICATE; the line is SILENT from then on, and the peer table is not touched. A HALT or a RESUME of the own number then
acts as one of another station does; no other kind does. When the line leaves ACTIVE so, a SETTLING player whose
TALK_INTENT waits backs off, the intent withdrawn and no TALK_END sent (R91); one whose intent was sent goes on. That a
frame of the own number read while transmitting is the station's own is read by inference (assumption 31), and the
intent status after a back-off is the model's choice (assumption 53). -/
def Obligations.FramesAreCheckedBeforeUse : Prop :=
  ∀ (k : FrameKind) (f : Frame) (s : State), Settled s →
    let duplicate (t : State) : Prop :=
      exec (frameCommand k f) s = .next t ∧ t.line.state = .silent ∧ t.line.peers = s.line.peers ∧
        ∃ x ∈ t.faults.records, x.kind = .duplicate ∧ x.detail = BitVec.ofNat 8 s.settings.station
    (f.valid k = false ∨ s.phase ≠ .running ∨ s.line.state = .off → exec (frameCommand k f) s = .next s) ∧
    (Ready s → f.valid k = true → s.line.state ≠ .off → f.source = s.settings.station →
      (s.transmitting = true → exec (frameCommand k f) s = .next s) ∧
      (s.transmitting = false → k ≠ .halt → k ≠ .resume →
        (s.line.state = .silent →
          exec (frameCommand k f) s = .next (s.recordFault .duplicate s.settings.station)) ∧
        (s.line.state ≠ .silent → s.player.state ≠ .settling ∨ s.player.intentSent = true → NothingWaits s →
          ∃ t, duplicate t ∧ t.line = { s.line with state := .silent, muteTimer := none } ∧
            t.faults = (s.recordFault .duplicate s.settings.station).faults ∧ t.player = s.player ∧
            t.engine = s.engine ∧ t.drives = s.drives ∧
            t.share.allowance = min t.share.ownDemand (1000 * s.settings.baseShare)) ∧
        ∀ e, s.line.state ≠ .silent → WaitsToClaim s e → NothingWaits s →
          ∃ t, duplicate t ∧ t.player = backedOff s.player e ∧
            t.line =
              { s.line with
                state := .silent, muteTimer := none
                queue := s.line.queue.filter fun x =>
                  !(x.isIntent && x.claim == s.player.claim && !x.inTransmission) }) ∧
      (s.transmitting = false → k = .halt → s.halt = none → SegmentSafe s → NothingWaits s →
        s.line.queue.length < 7 → ∃ t, duplicate t ∧ t.halt = some .line ∧ HaltSafe t) ∧
      (s.transmitting = false → k = .resume → s.halt ≠ none → s.stopLevel = false → s.inHandover = false →
        s.player.state ≠ .settling → ∃ t, duplicate t ∧ t.halt = none))

/-- R91, R134, R135, R136, R137, R138, R146: an attempt sends the head of the queue; none is made while the stuck hold
is set or the line is not ACTIVE, a frame is in transmission or none waits. A lost attempt leaves everything but the
attempt as it was; an abort adds 1 to the errors in a row, and the sixteenth mutes the line for 100 ticks with
LINE_ERRORS; a success takes the frame off the queue and ends the errors, and opens the settle window of a claim whose
TALK_INTENT was sent. When the line is muted, a SETTLING player whose TALK_INTENT waits backs off, the intent withdrawn
and no TALK_END sent; one whose intent was sent goes on. A LOAD held aside takes the place of the LOAD that did not go
out, and enters the queue when it did. A claim that a discard ended is left out by hypothesis (assumption 9); the intent
status after a back-off is the model's choice (assumption 53). -/
def Obligations.AttemptsAndTheirEnds : Prop :=
  ∀ s : State, Ready s →
    let idle : List TxEntry := s.line.queue.map fun x => { x with inTransmission := false }
    let left : List TxEntry := s.line.queue.filter fun x => !x.inTransmission
    let back : State :=
      match s.line.heldLoad with
      | none => { s with line.queue := idle }
      | some load => { s with line.queue := idle.map fun x => if x.isLoad then load else x, line.heldLoad := none }
    (∀ head rest, s.line.queue = head :: rest → s.line.state = .active → s.line.stuckHold = false →
      s.transmitting = false →
      exec .transmissionAttempt s = .next { s with line.queue := { head with inTransmission := true } :: rest }) ∧
    (s.line.stuckHold = true ∨ s.line.state ≠ .active ∨ s.transmitting = true ∨ s.line.queue = [] →
      exec .transmissionAttempt s = .next s) ∧
    (s.transmitting = true → s.player.bounced = false →
      exec .arbitrationLost s = .next back ∧
      (s.line.errors < 15 →
        exec .readbackAbort s = .next { back with line.errors := s.line.errors + 1 }) ∧
      (s.line.errors = 15 → NothingWaits s →
        let mutes (player : Player) (t : State) : Prop :=
          exec .readbackAbort s = .next t ∧ t.line.state = .mute ∧ t.line.errors = 16 ∧
            t.line.muteTimer = some (s.now + 100) ∧ (∃ x ∈ t.faults.records, x.kind = .lineErrors ∧ x.detail = 0) ∧
            t.player = player
        (s.player.state ≠ .settling ∨ s.player.intentSent = true → ∃ t, mutes s.player t ∧ t.engine = s.engine) ∧
        ∀ e, WaitsToClaim s e →
          ∃ t, mutes (backedOff s.player e) t ∧
            (∀ x ∈ t.line.queue, x.isIntent = true → x.claim ≠ s.player.claim) ∧
            ∀ x ∈ t.line.queue, x.body = .talkEnd → ∃ y ∈ s.line.queue, y.body = .talkEnd) ∧
      ∀ e, s.line.queue.find? (fun x => x.inTransmission) = some e →
        (e.isIntent = false → s.line.heldLoad = none →
          exec .transmissionSuccess s = .next { s with line.queue := left, line.errors := 0 }) ∧
        (∀ load, e.isIntent = false → s.line.heldLoad = some load → left.length < 8 →
          exec .transmissionSuccess s =
            .next { s with line.queue := insertTx load left, line.errors := 0, line.heldLoad := none }) ∧
        (e.isIntent = true → s.line.heldLoad = none → s.player.state = .settling → e.claim = s.player.claim →
          exec .transmissionSuccess s =
            .next { s with
              line.queue := left, line.errors := 0, player.intentSent := true
              player.windowEnd := some (s.now + 6) }))

/-- R4, R7, R76, R137, R145, R146, R152: the end of MUTE makes the line ACTIVE with no errors. The end of joining makes
a JOINING line ACTIVE, with a LOAD handed over, and leaves a SILENT one SILENT; it raises START, for which a bound scene
that the tests let start is started. A RUNNING station with a STOP input held is HALTED first, with reason STOP_INPUT, a
HALT frame and a HALTED record; one with none held and the joining-halt flag set is HALTED with reason LINE and a
record; a station HALTED already stays so, and its START scenes are refused. A stuck line records LINE_STUCK once and
holds attempts until it has been recessive. Taken after its time, the event has the same effect by the model's choice
(assumption 12). -/
def Obligations.LineTimersAndStuckLine : Prop :=
  ∀ (s : State) (e : Tick), Ready s → e ≤ s.now →
    let noEntry : Prop := s.halt ≠ none ∨ (s.line.joiningHalt = false ∧ s.stopLevel = false)
    (s.line.state = .mute → s.line.muteTimer = some e → s.player.queue = [] → NothingWaits s →
      ∃ t, exec .muteTimerExpiry s = .next t ∧ t.line.state = .active ∧ t.line.errors = 0 ∧
        t.line.muteTimer = none ∧ t.engine = s.engine ∧ t.player = s.player ∧ t.drives = s.drives) ∧
    (s.line.state = .joining → s.line.joiningTimer = some e → noEntry →
      s.player.queue = [] → NothingWaits s → s.line.queue.length < 8 →
      let joins (engine : SceneEngine) : Prop :=
        ∃ t, exec .joiningTimerExpiry s = .next t ∧ t.line.state = .active ∧ t.line.joiningTimer = none ∧
          (∃ x ∈ t.line.queue, x.isLoad = true) ∧
          (∃ a, t.share.lastAnnouncement = some a ∧ a.time = s.now ∧ a.halted = s.halted) ∧ t.halt = s.halt ∧
          t.engine = engine ∧ t.drives = s.drives
      (s.considerations .start = [] ∨ s.halt ≠ none → joins s.engine) ∧
      ∀ n sc first k, s.considerations .start = [.consider .start n] → Starts s n sc first k →
        joins (startedIn s n sc first k).engine) ∧
    (s.line.state = .silent → s.line.joiningTimer = some e → noEntry →
      let ended : State := { s with line.joiningTimer := none }
      (s.considerations .start = [] ∨ s.halt ≠ none → exec .joiningTimerExpiry s = .next ended) ∧
      ∀ n sc first k, s.considerations .start = [.consider .start n] → Starts s n sc first k →
        exec .joiningTimerExpiry s = .next (startedIn ended n sc first k)) ∧
    (s.line.state = .joining ∨ s.line.state = .silent → s.line.joiningTimer = some e → s.halt = none → SegmentSafe s →
      let enters (reason : HaltReason) (t : State) : Prop :=
        exec .joiningTimerExpiry s = .next t ∧ t.halt = some reason ∧ HaltSafe t ∧ t.line.joiningTimer = none ∧
          t.line.state = (if s.line.state = .joining then .active else .silent) ∧
          (∃ x ∈ t.faults.records, x.kind = .halted ∧ x.detail = if reason = .stopInput then 0 else 1) ∧
          (s.line.state = .joining → ∃ a, t.share.lastAnnouncement = some a ∧ a.time = s.now ∧ a.halted = true)
      (s.stopLevel = true →
        ∃ t, enters .stopInput t ∧ (s.line.queue.length < 8 → ∃ x ∈ t.line.queue, x.body = .halt .stopInput)) ∧
      (s.stopLevel = false → s.line.joiningHalt = true → ∃ t, enters .line t)) ∧
    (exec .lineStuck s =
      .next (if s.line.stuckHold then s else State.recordFault { s with line.stuckHold := true } .lineStuck 0)) ∧
    exec .stuckHoldClear s = .next { s with line.stuckHold := false }

/-- R169: every frame a station sends, whose values fit their fields, goes out as the start bit 0, the header, the
payload, the CRC and seven 1s, each field most significant bit first; these bits read back as the frame, which a receiver
takes as valid, as a frame of its kind from that station, with the values it was made from. -/
def Obligations.FramesReadBackAsSent : Prop :=
  ∀ (source : Nat) (body : FrameBody), 1 ≤ source → source ≤ 62 → body.fits = true →
    let f := encodeFrame source body
    let n := f.payload.length
    f.bits.length = 40 + 8 * n ∧ f.bits[0]? = some false ∧
      (∀ i, i < 16 → f.bits[1 + i]? = some (f.header.getMsbD i)) ∧
      (∀ (j : Nat) (b : Byte), f.payload[j]? = some b →
        ∀ i, i < 8 → f.bits[17 + 8 * j + i]? = some (b.getMsbD i)) ∧
      (∀ i, i < 16 → f.bits[17 + 8 * n + i]? = some (f.crc.getMsbD i)) ∧
      (∀ i, i < 7 → f.bits[33 + 8 * n + i]? = some true) ∧
      frameOfBits f.bits = some f ∧ f.valid body.kind = true ∧ f.source = source ∧ readBody body.kind f = body ∧
      WellFormed (frameCommand body.kind f) = true

/-! ## Invariants of the machine -/

/-- Every step keeps the invariant: no event is left half done, no list outgrows its capacity (R85, R138, R143, R153),
the show memory keeps its canonical form with a COMMIT's row inside it (R159, R165), and the bay state and its timers
agree with the occupancy count (R34). -/
def Obligations.EveryStepKeepsInvariant : Prop :=
  ∀ s t : State, Inv s → step s = .next t → Inv t

/-- The station right after reset meets the invariants. Which restart `State.reset` stands for is the model's choice
(assumption 1). -/
def Obligations.ResetMeetsInvariants : Prop :=
  Inv State.reset ∧ SegmentSafe State.reset ∧ HaltSafe State.reset
end

