-- ==== Sys2Proof/Laws/Clock.lean ====
section
/-! SUPPORT. Which of the station's own events are due: the list that the idle step draws from (Clock.lean) against the
moments that the rules name (`IsDue`). -/

namespace Sys2Proof.Machine

theorem mem_dueIf (b : Bool) (c x : Instr) : x ∈ dueIf b c ↔ b = true ∧ x = c := by unfold dueIf; split <;> simp_all

theorem reached_iff_expired (timer : Option Tick) (now : Tick) : reached timer now = true ↔ expired timer now := by
  unfold reached expired; cases timer <;> simp

theorem Drive.inBand_iff (r : Drive) (c : DriveSettings) :
    r.inBand c = true ↔ r.position ≤ r.target + c.tolerance ∧ r.target ≤ r.position + c.tolerance := by
  unfold Drive.inBand distance; rw [decide_eq_true_eq]; omega

theorem HaltTimer.due_iff (t : HaltTimer) (now : Tick) : t.due now = true ↔ ∃ e, t = .expiring e ∧ e ≤ now := by
  unfold HaltTimer.due; cases t <;> simp

variable (s : State)

theorem announcementDue_iff : s.announcementDue = true ↔ LoadDue s := by
  unfold State.announcementDue LoadDue State.announcedDemand ceilDiv
  cases s.share.lastAnnouncement <;> simp

theorem clipOver_iff : s.clipOver = true ↔ ClipOver s := by
  unfold State.clipOver ClipOver State.durationOf Clip.duration ceilDiv
  cases s.player.current with
  | none => simp
  | some e =>
    cases s.player.playStart with
    | none => simp
    | some p => simp; cases s.clip? e.clip <;> simp

theorem driving_iff (d : Fin 4) :
    s.driving d = true ↔
      ((s.drives[d].state = .homing ∨ s.drives[d].state = .moving) ∧ s.drives[d].braking = false) ∨
        (s.drives[d].state = .track ∧ s.track.running = true) := by
  unfold State.driving; cases h : s.drives[d].state <;> simp

theorem stepDue_iff (k : Fin 4) :
    (s.stepDue k).isSome = true ↔ ∃ i e sc r, s.engine.slots[k].run = some i ∧ i.wait = .delaying e ∧ e ≤ s.now ∧
      s.scene? i.scene = some sc ∧ sc.steps[i.stepIndex]? = some r := by
  unfold State.stepDue
  cases h : s.engine.slots[k].run with
  | none => simp
  | some i =>
    cases hw : i.wait with
    | awaiting x d => simp [hw]
    | completed _ => simp [hw]
    | delaying e =>
      by_cases he : e ≤ s.now <;> cases hs : s.scene? i.scene <;> simp [hw, he, hs, Option.isSome_iff_exists]

theorem awaitTimedOut_iff (k : Fin 4) :
    s.awaitTimedOut k = true ↔ ∃ i subject e, s.engine.slots[k].run = some i ∧ i.wait = .awaiting subject (some e) ∧
      e ≤ s.now := by
  unfold State.awaitTimedOut
  cases h : s.engine.slots[k].run with
  | none => simp
  | some i =>
    cases hw : i.wait with
    | delaying e => simp [hw]
    | completed _ => simp [hw]
    | awaiting x d => cases d <;> simp [hw, reached]

theorem operationDue_iff (op : Operation) :
    s.operationDue = some op ↔ ∃ t, s.port.operation = some (op, t) ∧ t ≤ s.clockMs := by
  unfold State.operationDue
  cases h : s.port.operation with
  | none => simp
  | some x =>
    obtain ⟨op', t⟩ := x
    by_cases ht : t ≤ s.clockMs <;> simp [ht]

/-- The own events of the station that are due are those whose moment has come. -/
theorem mem_dueEvents (c : Instr) : c ∈ s.dueEvents ↔ IsDue s c := by
  unfold State.dueEvents IsDue
  cases h : s.phase <;> simp only []
  case powerOff => simp
  case heldInReset => simp
  case unconfigured => simp
  case maintenance =>
    unfold State.portEvents
    cases hd : s.operationDue with
    | none =>
      have hn : ∀ op t, s.port.operation = some (op, t) → ¬ t ≤ s.clockMs := fun op t ho ht => by
        have := (operationDue_iff s op).2 ⟨t, ho, ht⟩
        simp [hd] at this
      cases c <;> simp
      · exact fun row t ho => Nat.lt_of_not_le (hn _ t ho)
      · exact fun op t ho _ => Nat.lt_of_not_le (hn _ t ho)
    | some op =>
      obtain ⟨t, ho, ht⟩ := (operationDue_iff s op).1 hd
      cases op <;> cases c <;> simp [ho, ht]
  case running =>
    unfold State.showEvents
    cases c <;> simp only [List.mem_append, List.mem_flatMap, mem_dueIf, List.mem_finRange, true_and, reduceCtorEq,
      and_false, exists_false, or_false, false_or, Instr.latchExpiry.injEq, Instr.cooldownEnd.injEq,
      Instr.stepDeadline.injEq, Instr.awaitTimeout.injEq, Instr.fadeStep.injEq, Instr.admissionTimeout.injEq,
      Instr.voiceEntryExpiry.injEq, Instr.patienceExpiry.injEq, Instr.stillTimerExpiry.injEq,
      Instr.stallTimerExpiry.injEq, Instr.haltBrakeEnd.injEq, Instr.peerAgeOut.injEq, and_true, exists_eq_right',
      Bool.and_eq_true, beq_iff_eq, reached_iff_expired, announcementDue_iff, clipOver_iff, State.cooldownDue,
      State.quietDue, State.idleDue, State.windowDue, State.brakeDue, State.stallDue, State.joiningDue, State.muteDue,
      State.atRest, State.retryDue, State.giveUpDue, State.fadeOutOver, State.grantDue, State.settleDue, State.asked,
      State.inHandover, Drive.inBand_iff, HaltTimer.due_iff, driving_iff, stepDue_iff, awaitTimedOut_iff,
      Bool.or_eq_true, and_assoc]
    case latchExpiry i => unfold State.latchDue; cases s.inputs.inputs[i].latch <;> simp
    case fadeStep i => simp [State.fadeStepDue]
    case admissionTimeout d => simp [State.expiredEntry, and_assoc]
    case voiceEntryExpiry n =>
      simp only [State.voiceDue, List.any_eq_true, Bool.and_eq_true, beq_iff_eq, reached_iff_expired]
      exact ⟨fun ⟨_, _, ⟨v, hv, he, hx⟩, hn⟩ => ⟨v, hv, he.trans hn.symm, hx⟩,
        fun ⟨v, hv, he, hx⟩ => ⟨v, hv, ⟨v, hv, rfl, hx⟩, he.symm⟩⟩
    case patienceExpiry k clip =>
      simp only [State.impatient, List.find?_isSome, SayEntry.isFor, Bool.and_eq_true, beq_iff_eq, decide_eq_true_eq]
      exact ⟨fun ⟨_, _, ⟨v, hv, ⟨he, hc⟩, hx⟩, hn, hm⟩ => ⟨v, hv, he.trans hn.symm, hc.trans hm.symm, hx⟩,
        fun ⟨v, hv, he, hc, hx⟩ => ⟨v, hv, ⟨v, hv, ⟨rfl, rfl⟩, hx⟩, he.symm, hc.symm⟩⟩
    case fadeOutEnd => cases s.player.fadeOutStart <;> simp [expired]
    case stillTimerExpiry d =>
      exact ⟨fun ⟨_, h1, h2, h3, e⟩ => e ▸ ⟨h1, h2, h3⟩, fun ⟨h1, h2, h3⟩ => ⟨d, h1, h2, h3, rfl⟩⟩
    case stallTimerExpiry d =>
      exact ⟨fun ⟨_, h1, h2, e⟩ => e ▸ ⟨h1, h2⟩, fun ⟨h1, h2⟩ => ⟨d, h1, h2, rfl⟩⟩
    case peerAgeOut n =>
      simp only [State.peerDue, List.any_eq_true, Bool.and_eq_true, beq_iff_eq, decide_eq_true_eq]
      exact ⟨fun ⟨_, _, ⟨p, hp, he, hx⟩, hn⟩ => ⟨p, hp, he.trans hn.symm, hx⟩,
        fun ⟨p, hp, he, hx⟩ => ⟨p, hp, ⟨p, hp, rfl, hx⟩, he.symm⟩⟩

end Sys2Proof.Machine
end

