-- ==== Sys2Proof/Laws/Keeps.lean ====
section
/-! SUPPORT. What no operation of the show touches. `Keeps s t` says that the commands waiting, the phase, the clock, the
show memory, the settings, the port, the occupancy, the bay state and its two timers are the same in `t` as in `s`, and
that the bounded lists stay bounded. One lemma per shared operation of Reports, WaitQueue, Transmit, Player, DriveRun,
Share, Lamps, Motor, Track, Line and Engine. -/

namespace Sys2Proof.Machine

/-- The fields that no operation of the show changes. -/
def State.kept (s : State) :
    List Instr × Phase × Nat × List Host.Cell × Settings × Port × Nat × BayState × Option Tick × Option Tick :=
  (s.pending, s.phase, s.clockMs, s.memory, s.settings, s.port, s.inputs.occupancy, s.inputs.bay, s.inputs.quietTimer,
    s.inputs.idleTimer)

/-- The lengths of the bounded lists. -/
def State.sizes (s : State) : Nat × Nat × Nat × Nat :=
  (s.faults.records.length, s.line.queue.length, s.player.queue.length, s.line.peers.length)

structure Keeps (s t : State) : Prop where
  kept : t.kept = s.kept
  bounded : Bounded s → Bounded t

namespace Keeps

variable {s t u : State}

theorem refl (s : State) : Keeps s s := ⟨rfl, id⟩

theorem trans (h : Keeps s t) (h' : Keeps t u) : Keeps s u :=
  ⟨h'.kept.trans h.kept, fun b => h'.bounded (h.bounded b)⟩

theorem same (h : t.kept = s.kept) (h' : t.sizes = s.sizes) : Keeps s t := by
  refine ⟨h, fun b => ?_⟩
  simp only [State.sizes, Prod.mk.injEq] at h'
  obtain ⟨h1, h2, h3, h4⟩ := h'
  exact ⟨h1 ▸ b.records, h2 ▸ b.frames, h3 ▸ b.requests, h4 ▸ b.peers⟩

/-- An operation after an update that touches none of these. -/
theorem after (h : Keeps t u) (hk : t.kept = s.kept) (hs : t.sizes = s.sizes) : Keeps s u := (same hk hs).trans h

/-- The transmit queue alone changes. -/
theorem frames (h : t.kept = s.kept)
    (h' : (t.faults.records.length, t.player.queue.length, t.line.peers.length) =
      (s.faults.records.length, s.player.queue.length, s.line.peers.length))
    (hq : s.line.queue.length ≤ 8 → t.line.queue.length ≤ 8) : Keeps s t := by
  refine ⟨h, fun b => ?_⟩
  simp only [Prod.mk.injEq] at h'
  obtain ⟨h1, h3, h4⟩ := h'
  exact ⟨h1 ▸ b.records, hq b.frames, h3 ▸ b.requests, h4 ▸ b.peers⟩

/-- The wait queue alone changes. -/
theorem requests (h : t.kept = s.kept)
    (h' : (t.faults.records.length, t.line.queue.length, t.line.peers.length) =
      (s.faults.records.length, s.line.queue.length, s.line.peers.length))
    (hq : s.player.queue.length ≤ 8 → t.player.queue.length ≤ 8) : Keeps s t := by
  refine ⟨h, fun b => ?_⟩
  simp only [Prod.mk.injEq] at h'
  obtain ⟨h1, h2, h4⟩ := h'
  exact ⟨h1 ▸ b.records, h2 ▸ b.frames, hq b.requests, h4 ▸ b.peers⟩

theorem foldl {α : Type} (f : State → α → State) (hf : ∀ t a, Keeps t (f t a)) :
    ∀ (l : List α) (s : State), Keeps s (l.foldl f s)
  | [], s => refl s
  | a :: l, s => (hf s a).trans (foldl f hf l (f s a))

theorem phase (h : Keeps s t) : t.phase = s.phase := congrArg (fun p => p.2.1) h.kept
theorem pending (h : Keeps s t) : t.pending = s.pending := congrArg (fun p => p.1) h.kept
theorem clockMs (h : Keeps s t) : t.clockMs = s.clockMs := congrArg (fun p => p.2.2.1) h.kept
theorem memory (h : Keeps s t) : t.memory = s.memory := congrArg (fun p => p.2.2.2.1) h.kept
theorem settings (h : Keeps s t) : t.settings = s.settings := congrArg (fun p => p.2.2.2.2.1) h.kept
theorem port (h : Keeps s t) : t.port = s.port := congrArg (fun p => p.2.2.2.2.2.1) h.kept
theorem occupancy (h : Keeps s t) : t.inputs.occupancy = s.inputs.occupancy :=
  congrArg (fun p => p.2.2.2.2.2.2.1) h.kept
theorem bay (h : Keeps s t) : t.inputs.bay = s.inputs.bay := congrArg (fun p => p.2.2.2.2.2.2.2.1) h.kept
theorem quietTimer (h : Keeps s t) : t.inputs.quietTimer = s.inputs.quietTimer :=
  congrArg (fun p => p.2.2.2.2.2.2.2.2.1) h.kept
theorem idleTimer (h : Keeps s t) : t.inputs.idleTimer = s.inputs.idleTimer :=
  congrArg (fun p => p.2.2.2.2.2.2.2.2.2) h.kept
theorem inShow (h : Keeps s t) : t.inShow = s.inShow := by simp [State.inShow, h.phase]
theorem now (h : Keeps s t) : t.now = s.now := by simp [State.now, h.clockMs]

end Keeps

variable (s : State)

/-! ## Ops -/

theorem appendRecord_length {records : List FaultRecord} (r : FaultRecord) (h : records.length ≤ 8) :
    (appendRecord records r).length ≤ 8 := by
  unfold appendRecord
  split <;> simp <;> omega

theorem mergeFault_length {records : List FaultRecord} (kind : FaultKind) (detail : Byte) (t : BitVec 32)
    (h : records.length ≤ 8) : (mergeFault records kind detail t).length ≤ 8 := by
  unfold mergeFault
  split
  · rename_i r hr
    have hpos : records.length ≠ 0 := fun h0 => by simp [List.eq_nil_of_length_eq_zero h0] at hr
    split
    · simp; omega
    · exact appendRecord_length _ h
  · simp

theorem keeps_raise (ws : List Work) : Keeps s (s.raise ws) := .same rfl rfl

theorem keeps_indicators : Keeps s s.indicators := .same rfl rfl

theorem keeps_recordFault (kind : FaultKind) (detail : Nat) : Keeps s (s.recordFault kind detail) :=
  ⟨rfl, fun b => ⟨mergeFault_length _ _ _ b.records, b.frames, b.requests, b.peers⟩⟩

theorem keeps_clearLatch (i : Fin 8) : Keeps s (s.clearLatch i) := .same rfl rfl

/-! ## Reports -/

/-- What a report to the Scene Engine may change: the slots, and the works of the event. -/
def ReportsOnly (s t : State) : Prop := ∃ slots works, t = { s with engine.slots := slots, works := works }

theorem ReportsOnly.keeps {s t : State} : ReportsOnly s t → Keeps s t
  | ⟨_, _, h⟩ => by rw [h]; exact .same rfl rfl

theorem ReportsOnly.player {s t : State} : ReportsOnly s t → t.player = s.player
  | ⟨_, _, h⟩ => by rw [h]

theorem ReportsOnly.line {s t : State} : ReportsOnly s t → t.line = s.line
  | ⟨_, _, h⟩ => by rw [h]

theorem endAwait_reports (subject : Subject) (out : AwaitOutcome) (k : Fin 4) :
    ReportsOnly s (s.endAwait subject out k) := by
  unfold State.endAwait; split
  · split
    · exact ⟨_, _, rfl⟩
    · exact ⟨_, _, rfl⟩
  · exact ⟨_, _, rfl⟩

theorem endAwaits_reports (subject : Subject) (out : AwaitOutcome) :
    ∀ (ks : List (Fin 4)) (s : State), ReportsOnly s (ks.foldl (fun t k => t.endAwait subject out k) s)
  | [], _ => ⟨_, _, rfl⟩
  | k :: ks, s => by
    obtain ⟨a, b, h⟩ := endAwait_reports s subject out k
    obtain ⟨c, d, h'⟩ := endAwaits_reports subject out ks (s.endAwait subject out k)
    refine ⟨c, d, ?_⟩
    rw [List.foldl_cons, h', h]

theorem completeAwaits_reports (subject : Subject) (out : AwaitOutcome) :
    ReportsOnly s (s.completeAwaits subject out) := endAwaits_reports subject out _ s

theorem keeps_completeAwaits (subject : Subject) (out : AwaitOutcome) : Keeps s (s.completeAwaits subject out) :=
  (completeAwaits_reports s subject out).keeps

theorem reportSay_reports (e : SayEntry) (h : Handle) : ReportsOnly s (s.reportSay e h) := by
  unfold State.reportSay; split
  · split
    · split
      · rename_i i _ _ _ out _
        obtain ⟨a, b, h'⟩ := endAwait_reports
          (s.setSlot e.slot { s.engine.slots[e.slot] with run := some { i with handle := h } }) .narration out e.slot
        exact ⟨a, b, h'.trans rfl⟩
      · exact ⟨_, _, rfl⟩
    · exact ⟨_, _, rfl⟩
  · exact ⟨_, _, rfl⟩

theorem keeps_lateOutcome (subject : Subject) (r : Requester) : Keeps s (s.lateOutcome subject r) := by
  unfold State.lateOutcome; split
  · exact keeps_raise s _
  · exact .refl s

theorem keeps_reportSay (e : SayEntry) (h : Handle) : Keeps s (s.reportSay e h) := (reportSay_reports s e h).keeps

/-! ## WaitQueue -/

theorem insertSay_length (e : SayEntry) : ∀ q : List SayEntry, (insertSay e q).length = q.length + 1
  | [] => rfl
  | x :: xs => by unfold insertSay; split <;> simp [insertSay_length e xs]

theorem keeps_setSayQueue {q : List SayEntry} (h : s.player.queue.length ≤ 8 → q.length ≤ 8) :
    Keeps s (s.setSayQueue q) := .requests rfl rfl h

/-- Adding an entry to a queue with room. -/
theorem keeps_enqueueSay (e : SayEntry) (h : s.player.queue.length < 8) : Keeps s (s.enqueueSay e) :=
  (keeps_setSayQueue s fun _ => by rw [insertSay_length]; omega).trans (keeps_reportSay _ _ _)

theorem keeps_addSay (e : SayEntry) (h : s.player.queue.length < 8) : Keeps s (s.addSay e) :=
  Keeps.after (keeps_enqueueSay _ _ (by exact h)) rfl rfl

theorem filter_lt_of_find {α : Type} {p : α → Bool} :
    ∀ {l : List α} {x : α}, l.find? p = some x → (l.filter fun y => !p y).length < l.length
  | [], _, h => by simp at h
  | a :: l, x, h => by
    by_cases ha : p a = true
    · rw [List.filter_cons_of_neg (by simp [ha])]
      exact Nat.lt_succ_of_le (List.length_filter_le _ _)
    · rw [List.find?_cons_of_neg ha] at h
      rw [List.filter_cons_of_pos (by simp [ha])]
      simpa using filter_lt_of_find h

theorem keeps_returnSay (e : SayEntry) : Keeps s (s.returnSay e) := by
  unfold State.returnSay; split
  · exact keeps_reportSay s _ _
  · split
    · rename_i x hx
      exact keeps_setSayQueue s fun h => by
        rw [insertSay_length]
        have := filter_lt_of_find hx
        omega
    · simp only []
      split
      · rename_i hq
        exact (keeps_setSayQueue s fun _ => hq).trans (keeps_reportSay _ _ _)
      · split
        · have h : Keeps s (s.setSayQueue (insertSay e s.player.queue).dropLast) :=
            keeps_setSayQueue s fun h => by rw [List.length_dropLast, insertSay_length]; omega
          split
          · exact h.trans (keeps_reportSay _ _ _)
          · exact (h.trans (keeps_reportSay _ _ _)).trans (keeps_reportSay _ _ _)
        · exact .refl s

theorem keeps_endClaim : Keeps s s.endClaim := by
  unfold State.endClaim; split
  · exact Keeps.after (keeps_returnSay _ _) rfl rfl
  · exact .same rfl rfl

theorem keeps_intentDiscarded (claim : Nat) : Keeps s (s.intentDiscarded claim) := by
  unfold State.intentDiscarded; split
  · exact (keeps_endClaim s).trans (.same rfl rfl)
  · exact .refl s

/-! ## Transmit -/

theorem insertTx_length (e : TxEntry) : ∀ q : List TxEntry, (insertTx e q).length = q.length + 1
  | [] => rfl
  | x :: xs => by unfold insertTx; split <;> simp [insertTx_length e xs]

theorem removeLast_length {p : TxEntry → Bool} :
    ∀ {q : List TxEntry} {y : TxEntry} {ys : List TxEntry}, removeLast p q = some (y, ys) → ys.length + 1 = q.length
  | [], _, _, h => by simp [removeLast] at h
  | x :: xs, y, ys, h => by
    unfold removeLast at h
    split at h
    · rename_i y' ys' hx
      simp only [Option.some.injEq, Prod.mk.injEq] at h
      rw [← h.2]
      simpa using removeLast_length hx
    · split at h
      · simp only [Option.some.injEq, Prod.mk.injEq] at h
        simp [h.2]
      · simp at h

theorem keeps_setTxQueue {q : List TxEntry} (h : s.line.queue.length ≤ 8 → q.length ≤ 8) :
    Keeps s (s.setTxQueue q) := .frames rfl rfl h

theorem keeps_discardTx (e : TxEntry) : Keeps s (s.discardTx e) := by
  unfold State.discardTx; simp only []
  split
  · exact (keeps_recordFault s _ _).trans (keeps_intentDiscarded _ _)
  · exact keeps_recordFault s _ _

theorem keeps_enterTx (e : TxEntry) : Keeps s (s.enterTx e) := by
  unfold State.enterTx; split
  · exact keeps_setTxQueue s fun _ => by rw [insertTx_length]; omega
  · split
    · rename_i y ys hy
      exact (keeps_setTxQueue s fun h => by
        rw [insertTx_length]; have := removeLast_length hy; omega).trans (keeps_discardTx _ _)
    · split
      · rename_i y ys hy
        exact (keeps_setTxQueue s fun h => by
          rw [insertTx_length]; have := removeLast_length hy; omega).trans (keeps_discardTx _ _)
      · exact keeps_discardTx s _

theorem keeps_handOverFor (claim : Nat) (body : FrameBody) : Keeps s (s.handOverFor claim body) := by
  unfold State.handOverFor; simp only []
  split
  · split
    · exact .same rfl rfl
    · split
      · exact keeps_setTxQueue s fun h => by simpa using h
      · exact keeps_enterTx s _
  · exact keeps_enterTx s _

theorem keeps_handOver (body : FrameBody) : Keeps s (s.handOver body) := keeps_handOverFor s 0 body

theorem keeps_filterTx (p : TxEntry → Bool) : Keeps s (s.setTxQueue (s.line.queue.filter p)) :=
  keeps_setTxQueue s fun h => (List.length_filter_le _ _).trans h

theorem keeps_withdrawIntent (claim : Nat) : Keeps s (s.withdrawIntent claim) := keeps_filterTx s _

theorem keeps_handOverAsk : Keeps s s.handOverAsk := keeps_handOverFor s _ _

theorem keeps_withdrawBlockAsk : Keeps s s.withdrawBlockAsk := keeps_filterTx s _

/-! ## Player -/

/-- R80: what the sending of a sample may change. -/
theorem sendSample_frame :
    ∃ x n, s.sendSample = { s with player.audioOutput := x, player.samplesSent := n } := by
  unfold State.sendSample; split
  · split
    · split
      · exact ⟨_, _, rfl⟩
      · exact ⟨_, _, rfl⟩
    · exact ⟨_, _, rfl⟩
  · exact ⟨_, _, rfl⟩

theorem keeps_sendSample : Keeps s s.sendSample := by
  obtain ⟨x, n, h⟩ := sendSample_frame s
  rw [h]; exact .same rfl rfl

theorem keeps_playerStopped : Keeps s s.playerStopped := .same rfl rfl

theorem keeps_checkStart : Keeps s s.checkStart := by
  unfold State.checkStart; split
  · exact .refl s
  · rename_i e rest hq
    split
    · simp only []
      refine Keeps.trans ?_ ((keeps_reportSay _ _ _).trans (keeps_handOverFor _ _ _))
      exact .requests rfl rfl fun h => by simp [hq] at h ⊢; omega
    · exact .refl s

theorem keeps_retryClaim : Keeps s s.retryClaim := by
  unfold State.retryClaim; split
  · exact Keeps.after (keeps_checkStart _) rfl rfl
  · exact .refl s

theorem keeps_backOff : Keeps s s.backOff := by
  unfold State.backOff; simp only []
  split
  · exact ((keeps_withdrawIntent s _).trans (keeps_endClaim _)).trans (keeps_checkStart _)
  · exact ((keeps_handOver s _).trans (keeps_endClaim _)).trans (keeps_checkStart _)

theorem keeps_playerLineChanged : Keeps s s.playerLineChanged := by
  unfold State.playerLineChanged; split
  · exact keeps_checkStart s
  · split
    · exact keeps_backOff s
    · exact .refl s

theorem keeps_acceptSay (e : SayEntry) : Keeps s (s.acceptSay e) := by
  unfold State.acceptSay; split
  · rename_i x hx
    have hlt := filter_lt_of_find hx
    refine ⟨?_, fun b => ?_⟩
    · exact ((keeps_reportSay _ _ _).kept.trans rfl)
    · have h1 : Keeps s (s.setSayQueue (s.player.queue.filter fun y => !y.isFor e.slot e.clip)) :=
        keeps_setSayQueue s fun h => by omega
      exact (h1.trans (keeps_enqueueSay _ _ (by have := b.requests; simp [State.setSayQueue]; omega))).bounded b
  · split
    · rename_i h
      exact keeps_addSay s e h
    · split
      · rename_i last hlast
        have hne : s.player.queue ≠ [] := fun h0 => by simp [h0] at hlast
        have hpos := List.length_pos_iff.2 hne
        refine ⟨?_, fun b => ?_⟩
        · exact ((keeps_reportSay _ _ .queued).kept.trans rfl).trans (keeps_reportSay _ last .dropped).kept
        · have h1 : Keeps s (s.setSayQueue s.player.queue.dropLast) :=
            keeps_setSayQueue s fun h => by simp; omega
          have hq : ∀ (t : State) (x : SayEntry) (h : Handle), (t.reportSay x h).player.queue = t.player.queue :=
            fun t x h => by rw [(reportSay_reports t x h).player]
          refine ((h1.trans (keeps_reportSay _ _ _)).trans (keeps_addSay _ _ ?_)).bounded b
          have := b.requests
          rw [hq]; simp [State.setSayQueue]; omega
      · rename_i hlast
        have h0 : s.player.queue = [] := List.getLast?_eq_none_iff.1 hlast
        exact keeps_addSay s e (by simp [h0])

theorem keeps_filterSay (p : SayEntry → Bool) : Keeps s (s.setSayQueue (s.player.queue.filter p)) :=
  keeps_setSayQueue s fun h => (List.length_filter_le _ _).trans h

theorem keeps_cancelNarration (k : Fin 4) (mark : BitVec 8) : Keeps s (s.cancelNarration k mark) := by
  unfold State.cancelNarration; simp only []
  refine (keeps_filterSay s fun e => !(e.slot == k && e.mark == mark)).trans ?_
  split
  · split
    · split
      · exact .same rfl rfl
      · exact .same rfl rfl
      · exact .refl _
    · exact .refl _
  · exact .refl _

theorem keeps_haltNarration : Keeps s s.haltNarration := by
  unfold State.haltNarration; simp only []
  refine Keeps.trans (t := (if s.player.state = .idle then s else s.handOver .talkEnd).setSayQueue []) ?_
    (keeps_playerStopped _)
  split
  · exact keeps_setSayQueue s fun _ => by simp
  · exact (keeps_handOver s _).trans (keeps_setSayQueue _ fun _ => by simp)

theorem keeps_setVoice (n : Nat) (f : VoiceEntry → VoiceEntry) : Keeps s (s.setVoice n f) := .same rfl rfl

/-! ## DriveRun and Share -/

theorem keeps_setDrive (d : Fin 4) (r : Drive) : Keeps s (s.setDrive d r) := .same rfl rfl

theorem keeps_runSegment : Keeps s s.runSegment := .same rfl rfl

theorem keeps_stopSegment : Keeps s s.stopSegment := by
  unfold State.stopSegment; split
  · exact .same rfl rfl
  · exact .refl s

theorem keeps_handLampAllowance : Keeps s s.handLampAllowance := .same rfl rfl

theorem keeps_startEntry (e : AdmissionEntry) : Keeps s (s.startEntry e) := by
  unfold State.startEntry; split
  · simp only []
    split
    · exact keeps_setDrive s _ _
    · exact keeps_setDrive s _ _
    · exact .refl s
  · exact Keeps.after (keeps_handOverAsk _) rfl rfl
  · exact keeps_runSegment s

theorem keeps_dropEntry (d : Fin 4) : Keeps s (s.dropEntry d) := .same rfl rfl

theorem keeps_testEntries : ∀ (es : List AdmissionEntry) (s : State), Keeps s (State.testEntries es s)
  | [], s => .refl s
  | e :: es, s => by
    unfold State.testEntries; split
    · exact ((keeps_dropEntry s _).trans (keeps_startEntry _ _)).trans (keeps_testEntries es _)
    · exact keeps_testEntries es s

theorem keeps_recomputeOnce : Keeps s s.recomputeOnce := by
  have h1 : Keeps s s.formAllowance := .same rfl rfl
  have h2 : Keeps s.formAllowance s.formAllowance.testAdmissions := by
    unfold State.testAdmissions; split
    · exact .refl _
    · exact keeps_testEntries _ _
  exact (h1.trans (h2.trans (keeps_handLampAllowance _))).trans (.same rfl rfl)

theorem keeps_homeAtOnce (d : Fin 4) : Keeps s (s.homeAtOnce d) :=
  (keeps_setDrive s _ _).trans (keeps_completeAwaits _ _ _)

theorem keeps_recomputeUpTo : ∀ (n : Nat) (ending : List (Fin 4)) (s : State), Keeps s (State.recomputeUpTo n ending s)
  | 0, _, s => .refl s
  | n + 1, ending, s => by
    unfold State.recomputeUpTo; simp only []
    split
    · exact keeps_recomputeOnce s
    · exact ((keeps_recomputeOnce s).trans (keeps_homeAtOnce _ _)).trans (keeps_recomputeUpTo n _ _)

theorem keeps_recompute : Keeps s s.recompute := keeps_recomputeUpTo 5 [] s

theorem keeps_enterAdmission (kind : RequestKind) (d : Fin 4) : Keeps s (s.enterAdmission kind d) :=
  Keeps.after (keeps_recompute _) rfl rfl

theorem keeps_segmentStartTest : Keeps s s.segmentStartTest := by
  unfold State.segmentStartTest; split
  · exact (keeps_runSegment s).trans (keeps_handLampAllowance _)
  · exact keeps_enterAdmission s _ _

theorem keeps_handOverLoad : Keeps s s.handOverLoad :=
  Keeps.after (keeps_handOver _ _) rfl rfl

theorem keeps_announce : Keeps s s.announce := by
  unfold State.announce; split
  · simp only []
    split
    · exact Keeps.after (keeps_handOverLoad _) rfl rfl
    · exact .same rfl rfl
  · exact .refl s

/-! ## Lamps -/

theorem keeps_lampChanged : Keeps s s.lampChanged := by
  unfold State.lampChanged; split
  · exact .same rfl rfl
  · exact keeps_recompute s

theorem keeps_startFade (c : Fin 12) (target steps : Nat) (by_ : Option Requester) :
    Keeps s (s.startFade c target steps by_) := by
  unfold State.startFade; split
  · simp only []
    have h : Keeps s (s.setLamp c (s.lamps[c].startFade target steps by_ s.now)).lampChanged :=
      Keeps.after (keeps_lampChanged _) rfl rfl
    refine h.trans ?_
    split
    · exact keeps_completeAwaits _ _ _
    · exact .refl _
  · exact .refl s

theorem keeps_takeFadeStep (c : Fin 12) : Keeps s (s.takeFadeStep c) := by
  unfold State.takeFadeStep; simp only []
  split
  · exact .same rfl rfl
  · exact Keeps.after ((keeps_lampChanged _).trans (keeps_completeAwaits _ _ _)) rfl rfl

theorem keeps_idleDimming : Keeps s s.idleDimming := by
  unfold State.idleDimming; split
  · exact .refl s
  · exact Keeps.foldl _ (fun t c => by split; exacts [keeps_startFade _ _ _ _ _, .refl t]) _ _

theorem keeps_haltFades : Keeps s s.haltFades :=
  Keeps.foldl _ (fun _ _ => keeps_startFade _ _ _ _ _) _ _

/-! ## Motor -/

theorem keeps_pendMove (d : Fin 4) (target : Nat) (speedClass : Fin 4) (by_ : Requester) :
    Keeps s (s.pendMove d target speedClass by_) := (keeps_setDrive s _ _).trans (keeps_enterAdmission _ _ _)

theorem keeps_pendHome (d : Fin 4) (by_ : Requester) : Keeps s (s.pendHome d by_) :=
  (keeps_setDrive s _ _).trans (keeps_enterAdmission _ _ _)

theorem keeps_abandonRequest (d : Fin 4) : Keeps s (s.abandonRequest d) := by
  unfold State.abandonRequest; split
  · exact ((keeps_setDrive s _ _).trans (keeps_dropEntry _ _)).trans (keeps_recompute _)
  · exact .refl s

theorem keeps_requestMove (d : Fin 4) (target : Nat) (speedClass : Fin 4) (by_ : Requester) :
    Keeps s (s.requestMove d target speedClass by_) := by
  unfold State.requestMove; split
  · exact keeps_pendMove s _ _ _ _
  · exact keeps_setDrive s _ _
  · exact keeps_setDrive s _ _
  · exact .refl s

theorem keeps_requestHome (d : Fin 4) (by_ : Requester) : Keeps s (s.requestHome d by_) := by
  unfold State.requestHome; split
  · exact keeps_pendHome s _ _
  · exact keeps_pendHome s _ _
  · exact keeps_pendHome s _ _
  · exact keeps_pendHome s _ _
  · exact keeps_setDrive s _ _
  · exact keeps_setDrive s _ _
  · exact .refl s

theorem keeps_driveFault (d : Fin 4) (kind : FaultKind) : Keeps s (s.driveFault d kind) := by
  unfold State.driveFault; simp only []
  split
  · exact .refl s
  · refine Keeps.trans ?_ ((keeps_recordFault _ _ _).trans (keeps_completeAwaits _ _ _))
    split
    · exact ((keeps_setDrive s _ _).trans (keeps_dropEntry _ _)).trans (keeps_recompute _)
    · exact (keeps_setDrive s _ _).trans (keeps_dropEntry _ _)

theorem keeps_driveArrives (d : Fin 4) : Keeps s (s.driveArrives d) :=
  ((keeps_setDrive s _ _).trans (keeps_recompute _)).trans (keeps_completeAwaits _ _ _)

theorem keeps_countInMove (d : Fin 4) : Keeps s (s.countInMove d) := by
  unfold State.countInMove; simp only []
  split
  · split
    · exact .refl s
    · split
      · exact keeps_setDrive s _ _
      · split
        · exact keeps_setDrive s _ _
        · exact keeps_driveFault s _ _
  · split
    · exact keeps_setDrive s _ _
    · exact keeps_setDrive s _ _

theorem keeps_takeCount (d : Fin 4) (up : Bool) : Keeps s (s.takeCount d up) := by
  unfold State.takeCount; simp only []
  split
  · split
    · exact (keeps_setDrive s _ _).trans (keeps_driveFault _ _ _)
    · exact keeps_setDrive s _ _
  · split
    · split
      · exact (keeps_setDrive s _ _).trans (keeps_driveFault _ _ _)
      · split
        · exact (keeps_setDrive s _ _).trans (keeps_countInMove _ _)
        · exact keeps_setDrive s _ _
    · exact keeps_setDrive s _ _

theorem keeps_haltDrives : Keeps s s.haltDrives := Keeps.after (keeps_recompute _) rfl rfl

theorem keeps_haltAdmissions : Keeps s s.haltAdmissions := .same rfl rfl

/-! ## Track -/

theorem keeps_trackOutcome (out : AwaitOutcome) : Keeps s (s.trackOutcome out) :=
  Keeps.trans (t := s.completeAwaits .track out) (keeps_completeAwaits s _ _) (by
    unfold State.trackOutcome
    generalize s.completeAwaits .track out = t
    exact .same rfl rfl)

theorem keeps_trackFailed : Keeps s s.trackFailed := by
  unfold State.trackFailed; simp only []
  split
  · exact (keeps_lateOutcome s _ _).trans (keeps_trackOutcome _ _)
  · exact keeps_trackOutcome s _

theorem keeps_toPeer (o : ReleaseOutcome) : Keeps s (s.toPeer o) := keeps_handOver s _

theorem keeps_takeSend (c : Fin 4) : Keeps s (s.takeSend c) := Keeps.after (keeps_enterAdmission _ _ _) rfl rfl

theorem keeps_endAsk : Keeps s s.endAsk := Keeps.after (keeps_recompute _) rfl rfl

theorem keeps_withdrawAsk : Keeps s s.withdrawAsk := by
  unfold State.withdrawAsk; simp only []
  refine Keeps.trans ?_ (((keeps_toPeer _ _).trans (keeps_endAsk _)).trans (keeps_trackOutcome _ _))
  split
  · exact keeps_withdrawBlockAsk s
  · exact .refl s

theorem keeps_giveUpAsk : Keeps s s.giveUpAsk :=
  ((((keeps_toPeer s _).trans (keeps_withdrawBlockAsk _)).trans (keeps_retryClaim _)).trans (keeps_endAsk _)).trans
    (keeps_trackFailed _)

theorem keeps_enterSending : Keeps s s.enterSending :=
  ((keeps_withdrawBlockAsk s).trans (keeps_retryClaim _)).trans (Keeps.after (keeps_segmentStartTest _) rfl rfl)

theorem keeps_endHandover (st : TrackState) : Keeps s (s.endHandover st) :=
  (keeps_stopSegment s).trans (Keeps.after (keeps_recompute _) rfl rfl)

theorem keeps_sendComplete : Keeps s s.sendComplete :=
  ((keeps_toPeer s _).trans (keeps_endHandover _ _)).trans (keeps_trackOutcome _ _)

theorem keeps_trackLost : Keeps s s.trackLost := by
  unfold State.trackLost; simp only []
  refine Keeps.trans ?_ (((keeps_recordFault _ _ _).trans (keeps_endHandover _ _)).trans (keeps_trackOutcome _ _))
  split
  · exact keeps_toPeer s _
  · exact .refl s

theorem keeps_trackOvercurrent : Keeps s s.trackOvercurrent := by
  unfold State.trackOvercurrent; simp only []
  refine Keeps.trans ?_ ((keeps_endHandover _ _).trans (keeps_trackOutcome _ _))
  split
  · exact keeps_toPeer s _
  · exact .refl s

theorem keeps_enterReceiving (n : Nat) (c : Fin 4) : Keeps s (s.enterReceiving n c) := .same rfl rfl

theorem keeps_takeAsk (n : Nat) (c : Fin 4) : Keeps s (s.takeAsk n c) := by
  unfold State.takeAsk; split
  · split
    · exact keeps_handOver s _
    · split
      · exact ((keeps_enterReceiving s _ _).trans (keeps_handOver _ _)).trans (keeps_recompute _)
      · exact keeps_handOver s _
  · split <;> exact keeps_handOver s _
  · exact keeps_handOver s _

theorem keeps_receiveComplete : Keeps s s.receiveComplete := (keeps_endHandover s _).trans (keeps_trackOutcome _ _)

theorem keeps_carriageArrived : Keeps s s.carriageArrived := by
  unfold State.carriageArrived; split
  · exact keeps_receiveComplete s
  · exact .same rfl rfl

theorem keeps_trackBeamBroken (k : InputKind) : Keeps s (s.trackBeamBroken k) := by
  unfold State.trackBeamBroken
  split
  · exact .same rfl rfl
  · exact .same rfl rfl
  · exact keeps_receiveComplete s
  · exact .same rfl rfl
  · exact .refl s

theorem keeps_trackBeamClear (k : InputKind) : Keeps s (s.trackBeamClear k) := by
  unfold State.trackBeamClear
  split
  · split
    · exact keeps_sendComplete s
    · exact .refl s
  · split
    · exact keeps_carriageArrived s
    · exact .refl s
  · exact .refl s

theorem keeps_haltTrack : Keeps s s.haltTrack := by
  unfold State.haltTrack; split
  · exact keeps_withdrawAsk s
  · split
    · exact (keeps_stopSegment s).trans (Keeps.after (keeps_recompute _) rfl rfl)
    · exact .refl s

theorem keeps_resumeTrack : Keeps s s.resumeTrack := by
  unfold State.resumeTrack; split
  · exact Keeps.after (keeps_segmentStartTest _) rfl rfl
  · exact .refl s

theorem keeps_clearTrack : Keeps s s.clearTrack := by
  unfold State.clearTrack; split <;> exact .same rfl rfl

/-! ## Line -/

theorem keeps_setLineState (l : LineState) : Keeps s (s.setLineState l) :=
  Keeps.trans (t := State.recompute { s with line.state := l })
    (Keeps.after (keeps_recompute _) rfl rfl) (keeps_playerLineChanged _)

theorem keeps_beginAttempt : Keeps s s.beginAttempt := by
  unfold State.beginAttempt; split
  · exact .refl s
  · rename_i e rest h
    exact keeps_setTxQueue s fun hq => by rw [h] at hq; simpa using hq

theorem keeps_failAttempt : Keeps s s.failAttempt := by
  unfold State.failAttempt; simp only []
  split
  · exact .frames rfl rfl fun h => by simpa [State.setTxQueue] using h
  · exact keeps_setTxQueue s fun h => by simpa using h

theorem keeps_abortAttempt : Keeps s s.abortAttempt := by
  unfold State.abortAttempt; simp only []
  refine ((keeps_failAttempt s).trans ?_).trans (keeps_retryClaim _)
  split
  · exact .same rfl rfl
  · refine Keeps.trans ?_ (keeps_setLineState _ _)
    exact Keeps.after (keeps_recordFault _ _ _) rfl rfl

theorem keeps_loseAttempt : Keeps s s.loseAttempt := (keeps_failAttempt s).trans (keeps_retryClaim _)

theorem keeps_intentSentFor (n : Nat) : Keeps s (s.intentSentFor n) := by
  unfold State.intentSentFor; split
  · exact .same rfl rfl
  · exact .refl s

theorem keeps_succeedAttempt (e : TxEntry) : Keeps s (s.succeedAttempt e) := by
  unfold State.succeedAttempt; simp only []
  refine Keeps.trans (t := { s with
      line.queue := s.line.queue.filter fun x => !x.inTransmission
      line.errors := 0, line.heldLoad := none }) ?_ ?_
  · exact .frames rfl rfl fun h => (List.length_filter_le _ _).trans h
  · generalize { s with
      line.queue := s.line.queue.filter fun x => !x.inTransmission
      line.errors := 0, line.heldLoad := none } = t
    have h1 : Keeps t (if e.isIntent = true then t.intentSentFor e.claim else t) := by
      split
      · exact keeps_intentSentFor t _
      · exact .refl t
    generalize (if e.isIntent = true then t.intentSentFor e.claim else t) = u at h1
    refine h1.trans ?_
    cases s.line.heldLoad with
    | none => exact keeps_retryClaim u
    | some load => exact (keeps_enterTx u load).trans (keeps_retryClaim _)

theorem keeps_setPeers {ps : List Peer} (h : s.line.peers.length ≤ 32 → ps.length ≤ 32) : Keeps s (s.setPeers ps) :=
  ⟨rfl, fun b => ⟨b.records, b.frames, b.requests, h b.peers⟩⟩

theorem keeps_peersChanged : Keeps s s.peersChanged := by
  unfold State.peersChanged; split
  · exact .refl s
  · exact keeps_recompute s

theorem keeps_hearPeer (n : Nat) : Keeps s (s.hearPeer n) := keeps_setPeers s fun h => by simpa using h

theorem keeps_removePeer (n : Nat) : Keeps s (s.removePeer n) :=
  (keeps_setPeers s fun h => (List.length_filter_le _ _).trans h).trans (keeps_peersChanged _)

/-- No operation of the Share Calculator changes the peer table. -/
theorem recompute_peers : s.recompute.line.peers = s.line.peers := by
  have hd : ∀ (t : State) (e : TxEntry), (t.discardTx e).line.peers = t.line.peers := by
    intro t e
    have hr : ∀ (u : State) (x : SayEntry) (h : Handle), (u.reportSay x h).line = u.line :=
      fun u x h => (reportSay_reports u x h).line
    have hs : ∀ (u : State) (x : SayEntry), (u.returnSay x).line = u.line := by
      intro u x; unfold State.returnSay
      split
      · exact hr _ _ _
      · split
        · rfl
        · simp only []
          split
          · exact hr _ _ _
          · split
            · split
              · exact hr _ _ _
              · rw [hr, hr]; rfl
            · rfl
    unfold State.discardTx State.intentDiscarded State.endClaim
    simp only []
    split
    · split
      · split
        · simp only [hs]; rfl
        · rfl
      · rfl
    · rfl
  have he : ∀ (t : State) (e : TxEntry), (t.enterTx e).line.peers = t.line.peers := by
    intro t e; unfold State.enterTx
    split
    · rfl
    · split
      · rw [hd]; rfl
      · split
        · rw [hd]; rfl
        · exact hd _ _
  have ho : ∀ (t : State) (n : Nat) (b : FrameBody), (t.handOverFor n b).line.peers = t.line.peers := by
    intro t n b; unfold State.handOverFor
    simp only []
    split
    · split
      · rfl
      · split
        · rfl
        · exact he _ _
    · exact he _ _
  have hst : ∀ (t : State) (e : AdmissionEntry), (t.startEntry e).line.peers = t.line.peers := by
    intro t e; unfold State.startEntry
    split
    · simp only []
      split <;> rfl
    · exact ho _ _ _
    · rfl
  have ht : ∀ (es : List AdmissionEntry) (t : State), (State.testEntries es t).line.peers = t.line.peers := by
    intro es
    induction es with
    | nil => intro t; rfl
    | cons e es ih =>
      intro t; unfold State.testEntries
      split
      · rw [ih, hst]; rfl
      · exact ih t
  have h1 : ∀ t : State, t.recomputeOnce.line.peers = t.line.peers := by
    intro t
    show (t.formAllowance.testAdmissions).line.peers = t.line.peers
    unfold State.testAdmissions
    split
    · rfl
    · rw [ht]; rfl
  have h2 : ∀ (n : Nat) (ending : List (Fin 4)) (t : State),
      (State.recomputeUpTo n ending t).line.peers = t.line.peers := by
    intro n
    induction n with
    | zero => intro _ t; rfl
    | succ n ih =>
      intro _ t; unfold State.recomputeUpTo
      simp only []
      split
      · exact h1 t
      · rw [ih]
        have h3 : ∀ d, (t.recomputeOnce.homeAtOnce d).line = t.recomputeOnce.line := fun d =>
          (completeAwaits_reports _ _ _).line
        rw [h3, h1 t]
  exact h2 5 [] s

theorem keeps_addPeer (n demand : Nat) (h : s.line.peers.length < 32) : Keeps s (s.addPeer n demand) :=
  (keeps_setPeers s fun _ => by simp; omega).trans (keeps_peersChanged _)

theorem oldestPeer_mem : ∀ {ps : List Peer} {p : Peer}, oldestPeer ps = some p → p ∈ ps
  | [], _, h => by simp [oldestPeer] at h
  | q :: ps, p, h => by
    unfold oldestPeer at h
    split at h
    · simp only [Option.some.injEq] at h; simp [h]
    · rename_i r hr
      split at h
      · simp only [Option.some.injEq] at h; simp [h]
      · simp only [Option.some.injEq] at h
        exact List.mem_cons_of_mem _ (h ▸ oldestPeer_mem hr)

theorem keeps_addToFullTable (n demand : Nat) : Keeps s (s.addToFullTable n demand) := by
  unfold State.addToFullTable; split
  · exact .refl s
  · rename_i p hp
    split
    · have hmem := oldestPeer_mem hp
      have hlt : (s.line.peers.filter fun q => q.station != p.station).length < s.line.peers.length := by
        refine List.length_filter_lt_length_iff_exists.2 ⟨p, hmem, by simp⟩
      have hpeers : (s.removePeer p.station).line.peers = s.line.peers.filter fun q => q.station != p.station := by
        unfold State.removePeer State.peersChanged
        split
        · rfl
        · rw [recompute_peers]; rfl
      refine ⟨?_, fun b => ?_⟩
      · refine Eq.trans ?_ (keeps_removePeer s p.station).kept
        exact ((keeps_peersChanged _).kept).trans rfl
      · have hb := b.peers
        refine ((keeps_removePeer s _).trans (keeps_addPeer _ _ _ ?_)).bounded b
        rw [hpeers]; omega
    · split
      · exact .refl s
      · exact Keeps.after (keeps_recordFault _ _ _) rfl rfl

theorem keeps_takeLoad (n demand group : Nat) : Keeps s (s.takeLoad n demand group) := by
  unfold State.takeLoad; split
  · split
    · exact (keeps_setPeers s fun h => by simpa using h).trans (keeps_peersChanged _)
    · split
      · rename_i h
        exact keeps_addPeer s _ _ h
      · exact keeps_addToFullTable s _ _
  · split
    · exact keeps_removePeer s _
    · exact .refl s

theorem keeps_duplicate : Keeps s s.duplicate := by
  unfold State.duplicate; simp only []
  refine (keeps_recordFault s .duplicate s.settings.station).trans ?_
  split
  · exact .refl _
  · exact Keeps.after (keeps_setLineState _ _) rfl rfl

theorem keeps_receive (k : FrameKind) (f : Frame) (route : State → State) (h : ∀ t, Keeps t (route t)) :
    Keeps s (s.receive k f route) := by
  unfold State.receive; split
  · split
    · split
      · exact .refl s
      · split
        · exact (keeps_duplicate s).trans (h _)
        · exact keeps_duplicate s
    · exact (keeps_hearPeer s _).trans (h _)
  · exact .refl s

/-! ## Engine -/

theorem keeps_setRun (k : Fin 4) (run : Option Running) : Keeps s (s.setRun k run) := .same rfl rfl

theorem keeps_clearOwners (k : Fin 4) : Keeps s (s.clearOwners k) := .same rfl rfl

theorem keeps_cancelTrack (k : Fin 4) (mark : BitVec 8) (why : CancelReason) : Keeps s (s.cancelTrack k mark why) := by
  unfold State.cancelTrack; split
  · simp only []
    refine Keeps.trans (t := if why ≠ .halted ∧ s.asking = true then s.withdrawAsk else s) ?_ (.same rfl rfl)
    split
    · exact keeps_withdrawAsk s
    · exact .refl s
  · exact .refl s

theorem keeps_cancelSlot (k : Fin 4) (why : CancelReason) : Keeps s (s.cancelSlot k why) := by
  unfold State.cancelSlot; split
  · exact .refl s
  · simp only []
    have h1 : Keeps s (if why = .halted then s else s.cancelNarration k s.engine.slots[k].mark) := by
      split
      · exact .refl s
      · exact keeps_cancelNarration s _ _
    generalize (if why = .halted then s else s.cancelNarration k s.engine.slots[k].mark) = t at h1
    have h2 : Keeps s (((t.cancelTrack k s.engine.slots[k].mark why).clearOwners k).setRun k none) :=
      ((h1.trans (keeps_cancelTrack t _ _ _)).trans (keeps_clearOwners _ _)).trans (keeps_setRun _ _ _)
    split
    · exact h2.trans (keeps_raise _ _)
    · exact h2

theorem keeps_finishSlot (k : Fin 4) (n : Fin 64) : Keeps s (s.finishSlot k n) :=
  ((keeps_clearOwners s _).trans (keeps_setRun _ _ _)).trans (keeps_raise _ _)

theorem keeps_moveOn (k : Fin 4) : Keeps s (s.moveOn k) := by
  unfold State.moveOn; split
  · exact .refl s
  · split
    · exact keeps_setRun s _ _
    · exact keeps_finishSlot s _ _

theorem keeps_failStep (k : Fin 4) : Keeps s (s.failStep k) := by
  unfold State.failStep; split
  · exact keeps_cancelSlot s _ _
  · exact keeps_moveOn s _

theorem keeps_raiseRun (k : Fin 4) : Keeps s (s.raiseRun k) := by
  unfold State.raiseRun; split
  · split
    · split
      · exact keeps_raise s _
      · exact .refl s
    · exact .refl s
    · exact .refl s
  · exact .refl s

theorem keeps_completeAwait (k : Fin 4) (failed : Bool) : Keeps s (s.completeAwait k failed) := by
  unfold State.completeAwait
  refine Keeps.trans ?_ (keeps_raiseRun _ _)
  split
  · exact keeps_failStep s _
  · exact keeps_moveOn s _

theorem keeps_preemptAwaits (k : Fin 4) (subject : Subject) : Keeps s (s.preemptAwaits k subject) :=
  (endAwaits_reports subject .preempted _ s).keeps

theorem keeps_fadeChannel (k : Fin 4) (priority target duration : Nat) (c : Fin 12) :
    Keeps s (s.fadeChannel k priority target duration c) := by
  unfold State.fadeChannel; simp only []
  split
  · refine Keeps.trans (t := if isTakeover s.engine.channelOwners[c] k then s.preemptAwaits k (.fade c) else s) ?_
      (Keeps.after (keeps_startFade _ _ _ _ _) rfl rfl)
    split
    · exact keeps_preemptAwaits s k _
    · exact .refl s
  · exact .refl s

theorem keeps_issueFade (k : Fin 4) (priority : Nat) (channels : BitVec 12) (target duration : Nat) :
    Keeps s (s.issueFade k priority channels target duration) :=
  Keeps.foldl _ (fun t c => by split; exacts [keeps_fadeChannel _ _ _ _ _ _, .refl t]) _ _

theorem keeps_issueSay (k : Fin 4) (i : Running) (clip : Byte) (priority patience : Nat) :
    Keeps s (s.issueSay k i clip priority patience).1 := by
  unfold State.issueSay; simp only []
  split
  · exact keeps_setRun s _ _
  · split
    · exact ((keeps_setRun s _ _).trans (keeps_acceptSay _ _)).trans (keeps_checkStart _)
    · exact (keeps_setRun s _ _).trans (keeps_checkStart _)

theorem keeps_takeDrive (k : Fin 4) (priority : Nat) (d : Fin 4) : Keeps s (s.takeDrive k priority d) := by
  unfold State.takeDrive; simp only []
  split
  · exact ((keeps_preemptAwaits s k _).trans (keeps_abandonRequest _ d)).trans (.same rfl rfl)
  · exact .same rfl rfl

theorem keeps_issueMove (k : Fin 4) (priority : Nat) (d : Fin 4) (target : Nat) (c : Fin 4) :
    Keeps s (s.issueMove k priority d target c).1 := by
  unfold State.issueMove; simp only []
  split
  · exact .refl s
  · split
    · exact keeps_recordFault s _ _
    · split
      · exact (keeps_takeDrive s _ _ _).trans (keeps_requestMove _ _ _ _ _)
      · exact .refl s

theorem keeps_issueHome (k : Fin 4) (priority : Nat) (d : Fin 4) : Keeps s (s.issueHome k priority d).1 := by
  unfold State.issueHome
  split
  · exact .refl s
  · split
    · exact (keeps_takeDrive s _ _ _).trans (keeps_requestHome _ _ _)
    · exact .refl s

theorem keeps_issueSend (k : Fin 4) (c : Fin 4) : Keeps s (s.issueSend k c).1 := by
  unfold State.issueSend; split
  · exact Keeps.after (keeps_takeSend _ _) rfl rfl
  · exact .refl s

theorem keeps_issueAwait (k : Fin 4) (i : Running) (subject : Subject) (limit : Nat) :
    Keeps s (s.issueAwait k i subject limit).1 := by
  unfold State.issueAwait; split
  · exact .refl s
  · exact .refl s
  · exact keeps_setRun s _ _

theorem keeps_carryOut (k : Fin 4) (i : Running) (a : Action) : Keeps s (s.carryOut k i a).1 := by
  cases a with
  | fade channels target duration => exact keeps_issueFade s _ _ _ _ _
  | say clip priority patience => exact keeps_issueSay s _ _ _ _ _
  | move d target c => exact keeps_issueMove s _ _ _ _ _
  | home d => exact keeps_issueHome s _ _ _
  | send c => exact keeps_issueSend s _ _
  | await subject limit => exact keeps_issueAwait s _ _ _ _
  | cue dest tag => exact keeps_handOver s (.cue dest tag)

theorem keeps_issueStep (k : Fin 4) (i : Running) (r : StepRecord) : Keeps s (s.issueStep k i r).1 := by
  unfold State.issueStep; split
  · exact (keeps_recordFault s _ _).trans (keeps_failStep _ _)
  · rename_i a _
    have h := keeps_carryOut s k i a
    split
    · rename_i t ht
      rw [ht] at h
      exact h.trans (keeps_moveOn _ _)
    · rename_i t ht
      rw [ht] at h
      exact h.trans (keeps_failStep _ _)
    · rename_i t ht
      rw [ht] at h
      exact h

theorem keeps_runSteps : ∀ (n : Nat) (k : Fin 4) (mark : BitVec 8) (loops : List Work) (s : State),
    Keeps s (State.runSteps n k mark loops s)
  | 0, _, _, _, s => keeps_raise s _
  | n + 1, k, mark, loops, s => by
    unfold State.runSteps; split
    · split
      · exact (keeps_issueStep s _ _ _).trans (keeps_runSteps n _ _ _ _)
      · exact keeps_raise s _
    · exact keeps_raise s _

theorem keeps_runSlot (k : Fin 4) : Keeps s (s.runSlot k) := keeps_runSteps 32 k _ [] s

theorem keeps_startScene (k : Fin 4) (n : Fin 64) (sc : Scene) (ev : TriggerEvent) :
    Keeps s (s.startScene k n sc ev) := by
  unfold State.startScene; simp only []
  generalize ((sc.steps[0]?).map fun r => r.delay).getD 0 = delay
  have h1 : ∀ t : State, t.kept = s.kept → t.sizes = s.sizes →
      Keeps s (match ev with | .input i => t.clearLatch i | _ => t) := by
    intro t hk hs
    split
    · exact (Keeps.same hk hs).trans (keeps_clearLatch t _)
    · exact .same hk hs
  split
  · refine Keeps.trans ?_ (keeps_raise _ _)
    exact h1 _ rfl rfl
  · exact h1 _ rfl rfl

theorem keeps_placeScene (n : Fin 64) (sc : Scene) (ev : TriggerEvent) : Keeps s (s.placeScene n sc ev) := by
  unfold State.placeScene; split
  · exact keeps_startScene s _ _ _ _
  · split
    · split
      · exact ((keeps_cancelSlot s _ _).trans (keeps_startScene _ _ _ _ _)).trans (keeps_raise _ _)
      · exact .refl s
    · exact .refl s

theorem keeps_consider (ev : TriggerEvent) (n : Fin 64) : Keeps s (s.consider ev n) := by
  unfold State.consider; split
  · exact .refl s
  · split
    · split
      · exact keeps_clearLatch s _
      · exact .refl s
    · split
      · exact .refl s
      · split
        · exact .refl s
        · split
          · split
            · exact (keeps_cancelSlot s _ _).trans (keeps_startScene _ _ _ _ _)
            · exact .refl s
          · exact keeps_placeScene s _ _ _

theorem keeps_retake (n : Fin 64) : Keeps s (s.retake n) := by
  unfold State.retake; split
  · exact .refl s
  · split
    · split
      · exact keeps_consider s _ _
      · exact .refl s
    · exact .refl s

theorem keeps_take (w : Work) : Keeps s (s.take w) := by
  cases w with
  | consider ev n => exact keeps_consider s _ _
  | retake n => exact keeps_retake s _
  | runSlot k => exact keeps_runSlot s _
  | latchPassEnd i => exact keeps_clearLatch s _
  | awaitDone k mark =>
    show Keeps s (s.takeAwaitDone k mark)
    unfold State.takeAwaitDone; split
    · split
      · exact keeps_completeAwait s _ _
      · exact .refl s
      · exact .refl s
    · exact .refl s
  | lateFailure k mark =>
    show Keeps s (s.takeLateFailure k mark)
    unfold State.takeLateFailure; split
    · exact keeps_cancelSlot s _ _
    · exact .refl s
  | playerIdle => exact (keeps_playerStopped s).trans (keeps_checkStart _)

/-- The works of an event, and that none is left when they have ended. -/
theorem keeps_settle : ∀ (n : Nat) (s t : State), State.settle n s = some t → Keeps s t ∧ t.works = []
  | 0, s, t, h => by
    unfold State.settle at h
    split at h
    · rename_i hw
      cases h
      exact ⟨.refl s, List.isEmpty_iff.1 hw⟩
    · cases h
  | n + 1, s, t, h => by
    unfold State.settle at h
    split at h
    · rename_i hw
      cases h
      exact ⟨.refl s, hw⟩
    · have h' := keeps_settle n _ t h
      refine ⟨Keeps.trans (t := State.take { s with works := [] } _) ?_ (Keeps.after h'.1 rfl rfl), h'.2⟩
      exact Keeps.after (keeps_take _ _) rfl rfl

/-- An event that answers a next state keeps what its body keeps. -/
theorem keeps_event {body : State → State} (hb : Keeps s (body s)) {t : State} (h : event body s = .next t) :
    Keeps s t := by
  unfold event at h
  split at h
  · rename_i u hu
    cases h
    exact hb.trans ((keeps_settle _ _ _ hu).1.trans (keeps_announce u))
  · cases h

end Sys2Proof.Machine
end

