-- ==== Sys2Proof/Laws/Events.lean ====
section
/-! SUPPORT. What the bodies of the show's events keep, in the sense of Laws/Keeps.lean: Halt, FrameEvents, LineEvents,
NarrationEvents, DriveEvents, TrackEvents, ShareEvents, LampEvents and SceneEvents. -/

namespace Sys2Proof.Machine

variable (s : State)

/-! ## Halt -/

theorem keeps_haltScenes : Keeps s s.haltScenes := by
  have h : Keeps s ((List.finRange 4).foldl (fun t k => t.cancelSlot k .halted) s) :=
    Keeps.foldl _ (fun _ _ => keeps_cancelSlot _ _ _) _ _
  unfold State.haltScenes
  generalize (List.finRange 4).foldl (fun t k => State.cancelSlot t k .halted) s = t at h
  exact h.trans (.same rfl rfl)

theorem keeps_enterHalt (r : HaltReason) : Keeps s (s.enterHalt r) := by
  have h : Keeps s (State.haltScenes { s with halt := some r }) := Keeps.after (keeps_haltScenes _) rfl rfl
  exact ((((h.trans (keeps_haltFades _)).trans (keeps_haltAdmissions _)).trans (keeps_haltNarration _)).trans
    (keeps_haltDrives _)).trans (keeps_haltTrack _)

theorem keeps_recordHalted (r : HaltReason) : Keeps s (s.recordHalted r) := keeps_recordFault s _ _

theorem keeps_sendHalt : Keeps s s.sendHalt := keeps_handOver s _

theorem keeps_leaveHalt : Keeps s s.leaveHalt :=
  Keeps.trans (t := State.resumeTrack { s with halt := none }) (Keeps.after (keeps_resumeTrack _) rfl rfl)
    (.same rfl rfl)

theorem keeps_stopActivation : Keeps s s.stopActivation := by
  unfold State.stopActivation; split
  · exact keeps_sendHalt s
  · exact ((keeps_enterHalt s _).trans (keeps_sendHalt _)).trans (keeps_recordHalted _ _)

theorem keeps_haltFrame : Keeps s s.haltFrame := by
  unfold State.haltFrame; split
  · exact .refl s
  · exact (keeps_enterHalt s _).trans (keeps_recordHalted _ _)

theorem keeps_resumeAtHalt : Keeps s s.resumeAtHalt := by
  unfold State.resumeAtHalt; split
  · split
    · exact keeps_sendHalt s
    · exact (keeps_leaveHalt s).trans (keeps_handOver _ _)
  · exact .refl s

theorem keeps_resumeFrame : Keeps s s.resumeFrame := by
  unfold State.resumeFrame; simp only []
  have h : Keeps s (if s.line.joiningTimer.isSome = true then { s with line.joiningHalt := false } else s) := by
    split
    · exact .same rfl rfl
    · exact .refl s
  generalize (if s.line.joiningTimer.isSome = true then { s with line.joiningHalt := false } else s) = t at h ⊢
  refine h.trans ?_
  split
  · split
    · exact keeps_sendHalt t
    · exact keeps_leaveHalt t
  · exact .refl t

theorem keeps_resumeActivation : Keeps s s.resumeActivation := by
  unfold State.resumeActivation; split
  · simp only []
    refine Keeps.trans (t := { s with draws := s.draws + 1 }) (.same rfl rfl) ?_
    split
    · exact (keeps_resumeAtHalt _).trans (keeps_clearTrack _)
    · exact (keeps_clearTrack _).trans (keeps_resumeAtHalt _)
  · exact (keeps_resumeAtHalt s).trans (keeps_clearTrack _)

theorem keeps_joiningHaltCheck (flag : Bool) : Keeps s (s.joiningHaltCheck flag) := by
  unfold State.joiningHaltCheck; split
  · exact .refl s
  · split
    · exact ((keeps_enterHalt s _).trans (keeps_sendHalt _)).trans (keeps_recordHalted _ _)
    · split
      · exact (keeps_enterHalt s _).trans (keeps_recordHalted _ _)
      · exact .refl s

/-! ## Frames -/

theorem keeps_raiseTrigger (ev : TriggerEvent) : Keeps s (s.raiseTrigger ev) := keeps_raise s _

theorem keeps_hearIntent (source priority duration : Nat) : Keeps s (State.hearIntent source priority duration s) := by
  unfold State.hearIntent; simp only []
  refine (keeps_setVoice s source (.talkUntil (s.now + 10 * duration + 200))).trans ?_
  split
  · exact .refl _
  · split
    · exact keeps_backOff _
    · exact .refl _
  · exact keeps_handOver _ _
  · exact keeps_handOver _ _

theorem keeps_hearBusy (source dest remaining : Nat) : Keeps s (State.hearBusy source dest remaining s) := by
  unfold State.hearBusy; split
  · exact .refl s
  split
  · simp only []
    refine (keeps_setVoice s source (.talkUntil (s.now + 10 * remaining + 200))).trans ?_
    split
    · exact keeps_backOff _
    · exact .refl _
  · exact keeps_setVoice s _ _

theorem keeps_hearEnd (source : Nat) : Keeps s (State.hearEnd source s) := by
  unfold State.hearEnd; split
  · exact (keeps_setVoice s _ _).trans (keeps_checkStart _)
  · exact .refl s

theorem keeps_hearAsk (source dest : Nat) (c : Fin 4) : Keeps s (State.hearAsk source dest c s) := by
  unfold State.hearAsk; split
  · exact keeps_takeAsk s _ _
  · exact .refl s

theorem keeps_hearGrant (source dest : Nat) : Keeps s (State.hearGrant source dest s) := by
  unfold State.hearGrant; split
  · unfold State.takeGrant; split
    · exact keeps_enterSending s
    · exact .refl s
    · exact keeps_handOver s _
  · exact .refl s

theorem keeps_hearHeld (source dest : Nat) : Keeps s (State.hearHeld source dest s) := by
  unfold State.hearHeld; split
  · exact .same rfl rfl
  · exact .refl s

theorem keeps_hearRelease (source dest : Nat) (o : ReleaseOutcome) : Keeps s (State.hearRelease source dest o s) := by
  unfold State.hearRelease; split
  · unfold State.takeRelease; split
    · exact .refl s
    · exact (keeps_endHandover s _).trans (keeps_trackOutcome _ _)
    · exact keeps_trackLost s
  · exact .refl s

theorem keeps_hearCue (source dest tag : Nat) : Keeps s (State.hearCue source dest tag s) := by
  unfold State.hearCue; split
  · exact keeps_raiseTrigger s _
  · exact .refl s

theorem keeps_hearLoad (source demand group : Nat) (halted : Bool) :
    Keeps s (State.hearLoad source demand group halted s) := by
  unfold State.hearLoad; simp only []
  refine Keeps.trans ?_ (keeps_takeLoad _ _ _ _)
  split
  · exact .same rfl rfl
  · exact .refl s

/-! ## Line -/

theorem keeps_endMute : Keeps s s.endMute := Keeps.after (keeps_setLineState _ _) rfl rfl

theorem keeps_becomeActive : Keeps s s.becomeActive := by
  unfold State.becomeActive; split
  · refine Keeps.trans ?_ (keeps_playerLineChanged _)
    refine Keeps.trans ?_ (keeps_handOverLoad _)
    exact Keeps.after (keeps_recompute _) rfl rfl
  · exact .refl s

theorem keeps_endJoining : Keeps s s.endJoining := by
  have h : Keeps s (State.joiningHaltCheck { s with line.joiningTimer := none } s.line.joiningHalt) :=
    Keeps.after (keeps_joiningHaltCheck _ _) rfl rfl
  exact (h.trans (keeps_becomeActive _)).trans (keeps_raiseTrigger _ _)

/-! ## Narration -/

theorem keeps_startPlaying : Keeps s s.startPlaying := by
  unfold State.startPlaying; simp only []
  have h : Keeps s (State.sendSample
      { s with
        player.state := .playing, player.windowEnd := none, player.playStart := some s.now
        player.samplesSent := 0 }) := Keeps.after (keeps_sendSample _) rfl rfl
  split
  · exact h.trans (keeps_reportSay _ _ _)
  · exact h

theorem keeps_endWindow : Keeps s s.endWindow := by
  unfold State.endWindow; split
  · exact keeps_startPlaying s
  · exact keeps_backOff s

theorem keeps_endClip : Keeps s s.endClip := by
  unfold State.endClip; simp only []
  refine Keeps.trans ?_ (keeps_raise _ _)
  have h : Keeps s (State.handOver { s with player.audioOutput := 0 } .talkEnd) :=
    Keeps.after (keeps_handOver _ _) rfl rfl
  generalize State.handOver { s with player.audioOutput := 0 } .talkEnd = t at h ⊢
  refine h.trans ?_
  split
  · exact Keeps.after (keeps_reportSay _ _ _) rfl rfl
  · exact .same rfl rfl

theorem keeps_endFadeOut : Keeps s s.endFadeOut := by
  have h : Keeps s (State.handOver { s with player.audioOutput := 0 } .talkEnd) :=
    Keeps.after (keeps_handOver _ _) rfl rfl
  exact (h.trans (keeps_playerStopped _)).trans (keeps_checkStart _)

theorem keeps_patience (slot : Fin 4) (clip : Byte) (e : SayEntry) :
    Keeps s ((s.setSayQueue (s.player.queue.filter fun x => !x.isFor slot clip)).reportSay e .expired) :=
  (keeps_filterSay s fun x => !x.isFor slot clip).trans (keeps_reportSay _ _ _)

/-! ## Drives -/

theorem keeps_readEncoder (d : Fin 4) (a b : Bool) : Keeps s (s.readEncoder d a b) := by
  unfold State.readEncoder; simp only []
  split
  · exact Keeps.after (keeps_takeCount _ _ _) rfl rfl
  · exact .same rfl rfl

theorem keeps_segmentOvercurrent : Keeps s s.segmentOvercurrent := by
  unfold State.segmentOvercurrent; simp only []
  refine Keeps.trans ?_ (keeps_trackOvercurrent _)
  exact Keeps.after (keeps_recordFault _ _ _) rfl rfl

theorem keeps_takeSample (d : Fin 4) (code : Nat) : Keeps s (s.takeSample d code) := by
  unfold State.takeSample; simp only []
  split
  · split
    · exact Keeps.after (keeps_segmentOvercurrent _) rfl rfl
    · exact Keeps.after (keeps_driveFault _ _ _) rfl rfl
  · exact .same rfl rfl

theorem keeps_closeSwitch (d : Fin 4) (which : Switch) : Keeps s (s.closeSwitch d which) := by
  unfold State.closeSwitch; simp only []
  split
  · split
    · exact .same rfl rfl
    · exact .same rfl rfl
  · exact Keeps.after (keeps_driveFault _ _ _) rfl rfl
  · exact Keeps.after (keeps_driveFault _ _ _) rfl rfl
  · exact .same rfl rfl

/-! ## Track and share -/

theorem keeps_retryAsk : Keeps s s.retryAsk := by
  unfold State.retryAsk; simp only []
  split
  · exact .same rfl rfl
  · exact Keeps.after (keeps_handOverAsk _) rfl rfl

theorem keeps_failDriveRequest (d : Fin 4) : Keeps s (s.failDriveRequest d) := by
  unfold State.failDriveRequest; simp only []
  refine Keeps.trans ?_ (keeps_completeAwaits _ _ _)
  have h : Keeps s
      (State.recordFault (((s.setDrive d s.drives[d].unstarted).dropEntry d).recompute) .noPower d.val) := by
    refine Keeps.trans ?_ (keeps_recordFault _ _ _)
    exact Keeps.after (keeps_recompute _) rfl rfl
  split
  · exact h.trans (keeps_lateOutcome _ _ _)
  · exact h

theorem keeps_failAdmission (e : AdmissionEntry) : Keeps s (s.failAdmission e) := by
  unfold State.failAdmission; split
  · exact keeps_failDriveRequest s _
  · exact ((keeps_endAsk s).trans (keeps_recordFault _ _ _)).trans (keeps_trackFailed _)
  · exact .refl s

/-! ## Scenes -/

theorem keeps_endCooldown (n : Fin 64) : Keeps s ((s.setCooldown n none).raise [.retake n]) := .same rfl rfl

/-! ## Inputs: the bay changes, as R34 allows -/

/-- As `Keeps`, but that the occupancy, the bay state and their timers may change together. -/
structure KeepsBay (s t : State) : Prop where
  pending : t.pending = s.pending
  phase : t.phase = s.phase
  clockMs : t.clockMs = s.clockMs
  memory : t.memory = s.memory
  settings : t.settings = s.settings
  port : t.port = s.port
  bounded : Bounded s → Bounded t
  bay : BayAgrees s → BayAgrees t

theorem Keeps.toBay {s t : State} (h : Keeps s t) : KeepsBay s t where
  pending := h.pending
  phase := h.phase
  clockMs := h.clockMs
  memory := h.memory
  settings := h.settings
  port := h.port
  bounded := h.bounded
  bay b := by
    refine ⟨?_, ?_, ?_, ?_⟩
    · rw [h.occupancy]; exact b.range
    · rw [h.occupancy, h.bay]; exact b.occupied
    · rw [h.inShow, h.quietTimer, h.bay]; exact b.quiet
    · rw [h.inShow, h.idleTimer, h.bay]; exact b.idle

theorem KeepsBay.trans {s t u : State} (h : KeepsBay s t) (h' : KeepsBay t u) : KeepsBay s u where
  pending := h'.pending.trans h.pending
  phase := h'.phase.trans h.phase
  clockMs := h'.clockMs.trans h.clockMs
  memory := h'.memory.trans h.memory
  settings := h'.settings.trans h.settings
  port := h'.port.trans h.port
  bounded b := h'.bounded (h.bounded b)
  bay b := h'.bay (h.bay b)

/-- An update of the Input Unit's record alone. -/
theorem KeepsBay.ofInputs {s : State} {u : InputUnit} (h : BayAgrees s → BayAgrees { s with inputs := u }) :
    KeepsBay s { s with inputs := u } :=
  ⟨rfl, rfl, rfl, rfl, rfl, rfl, fun b => ⟨b.records, b.frames, b.requests, b.peers⟩, h⟩

theorem keepsBay_bayActivity : KeepsBay s s.bayActivity :=
  .ofInputs fun b => ⟨b.range, b.occupied, fun h => by simpa using b.quiet h, b.idle⟩

theorem keepsBay_bayEmpties : KeepsBay s s.bayEmpties :=
  KeepsBay.trans (.ofInputs fun _ => ⟨by simp, by simp, by simp, by simp⟩) (keeps_raiseTrigger _ _).toBay

theorem keepsBay_entry : KeepsBay s s.entry := by
  unfold State.entry; split
  · exact KeepsBay.trans (.ofInputs fun _ => ⟨by simp, by simp, by simp, by simp⟩) (keeps_raiseTrigger _ _).toBay
  · rename_i h
    refine (keepsBay_bayActivity s).trans (.ofInputs fun b => ⟨?_, ?_, b.quiet, b.idle⟩)
    · exact Nat.min_le_left _ _
    · have h1 := b.occupied
      have h2 : s.bayActivity.inputs.occupancy = s.inputs.occupancy := rfl
      simp only [h2] at h1
      simp only [h1]
      omega

theorem keepsBay_exitBay : KeepsBay s s.exitBay := by
  unfold State.exitBay; split
  · exact (Keeps.refl s).toBay
  · split
    · exact keepsBay_bayEmpties s
    · rename_i h0 h1
      refine (keepsBay_bayActivity s).trans (.ofInputs fun b => ⟨?_, ?_, b.quiet, b.idle⟩)
      · have := b.range
        have h2 : s.bayActivity.inputs.occupancy = s.inputs.occupancy := rfl
        simp only [h2] at this
        simp only []
        omega
      · have h1 := b.occupied
        have h2 : s.bayActivity.inputs.occupancy = s.inputs.occupancy := rfl
        simp only [h2] at h1
        simp only [h1]
        omega

theorem keepsBay_press (i : Fin 8) : KeepsBay s (s.press i) := by
  unfold State.press; simp only []
  have h : KeepsBay s ((s.bayActivity.setInput i
      { s.bayActivity.inputs.inputs[i] with latch := some s.bayActivity.now }).raiseTrigger (.input i)) := by
    refine (keepsBay_bayActivity s).trans (Keeps.toBay ?_)
    exact Keeps.after (keeps_raiseTrigger _ _) rfl rfl
  generalize (s.bayActivity.setInput i
      { s.bayActivity.inputs.inputs[i] with latch := some s.bayActivity.now }).raiseTrigger (.input i) = t at h ⊢
  split
  · exact h.trans (keeps_raise t _).toBay
  · exact h

theorem keepsBay_activation (i : Fin 8) : KeepsBay s (s.activation i) := by
  unfold State.activation; simp only []
  refine KeepsBay.trans (t := s.setInput i { s.inputs.inputs[i] with lastActivation := some s.now })
    (Keeps.toBay (.same rfl rfl)) ?_
  generalize s.setInput i { s.inputs.inputs[i] with lastActivation := some s.now } = t
  split
  · exact (Keeps.refl t).toBay
  · exact keepsBay_press t i
  · exact keepsBay_press t i
  · exact keepsBay_entry t
  · exact keepsBay_exitBay t
  · exact (keeps_stopActivation t).toBay
  · exact (keeps_resumeActivation t).toBay
  · split
    · exact (keeps_trackBeamBroken t _).toBay
    · exact (Keeps.refl t).toBay
  · split
    · exact (keeps_trackBeamBroken t _).toBay
    · exact (Keeps.refl t).toBay

theorem keeps_release (i : Fin 8) : Keeps s (s.release i) := by
  unfold State.release; split
  · split
    · exact keeps_trackBeamClear s _
    · exact .refl s
  · split
    · exact keeps_trackBeamClear s _
    · exact .refl s
  · exact .refl s

theorem keepsBay_sampleInput (i : Fin 8) (code : BitVec 10) : KeepsBay s (s.sampleInput i code) := by
  unfold State.sampleInput; simp only []
  have h : KeepsBay s (s.setInput i (s.inputs.inputs[i].sample s.settings.inputs[i] (levelOf code))) :=
    Keeps.toBay (.same rfl rfl)
  generalize s.setInput i (s.inputs.inputs[i].sample s.settings.inputs[i] (levelOf code)) = t at h ⊢
  split
  · exact h
  · split
    · exact h.trans (keepsBay_activation t i)
    · exact h.trans (keeps_release t i).toBay

theorem keepsBay_bayIdles (h : s.inShow = true) (ht : s.inputs.idleTimer.isSome = true) :
    KeepsBay s s.bayIdles := by
  refine KeepsBay.trans (t := { s with inputs.bay := .idle, inputs.idleTimer := none })
    (.ofInputs fun b => ?_) (keeps_idleDimming _).toBay
  have he : s.inputs.bay = .empty := (b.idle h).1 ht
  have ho : ¬ 0 < s.inputs.occupancy := fun h0 => by have := b.occupied.2 h0; simp [he] at this
  have hq : ¬ s.inputs.quietTimer.isSome = true := fun h0 => by have := (b.quiet h).1 h0; simp [he] at this
  exact ⟨b.range, by simpa using ho, fun _ => by simpa using hq, by simp⟩

end Sys2Proof.Machine
end

