-- ==== Sys2Proof/Laws/Memory.lean ====
section
/-! SUPPORT. The show memory: what each operation reads back as, and that each keeps the canonical form. -/

namespace Sys2Proof.Machine

theorem Memory.risesFrom_mono {lo lo' : Nat} (h : lo' ≤ lo) :
    ∀ {m : List Host.Cell}, Memory.risesFrom lo m = true → Memory.risesFrom lo' m = true
  | [], _ => rfl
  | (k, b) :: m, hm => by
    simp only [Memory.risesFrom, Bool.and_eq_true, decide_eq_true_eq] at hm ⊢
    exact ⟨⟨by omega, hm.1.2⟩, hm.2⟩

/-- An address below a rising memory reads as erased. -/
theorem Memory.read_below {lo a : Nat} (h : a < lo) :
    ∀ {m : List Host.Cell}, Memory.risesFrom lo m = true → Memory.read m a = Memory.erasedByte
  | [], _ => rfl
  | (k, b) :: m, hm => by
    simp only [Memory.risesFrom, Bool.and_eq_true, decide_eq_true_eq] at hm
    rw [Memory.read, if_neg (by omega)]
    exact Memory.read_below (by omega) hm.2

theorem Memory.read_write_same {lo a : Nat} (b : Byte) :
    ∀ {m : List Host.Cell}, Memory.risesFrom lo m = true → Memory.read (Memory.write m a b) a = b
  | [], _ => by unfold Memory.write; split <;> simp_all [Memory.read]
  | (k, v) :: m, hm => by
    simp only [Memory.risesFrom, Bool.and_eq_true, decide_eq_true_eq] at hm
    unfold Memory.write
    split
    · split
      · rename_i hk hb
        rw [Memory.read, if_neg (by omega), hb]
        exact Memory.read_below (by omega) hm.2
      · simp [Memory.read]
    · split
      · rename_i hk hak
        split
        · rename_i hb
          rw [hb]
          exact Memory.read_below (by omega) hm.2
        · simp [Memory.read]
      · rename_i hk hak
        rw [Memory.read, if_neg (by omega)]
        exact Memory.read_write_same b hm.2

theorem Memory.read_write_other {a c : Nat} (b : Byte) (h : c ≠ a) :
    ∀ m : List Host.Cell, Memory.read (Memory.write m a b) c = Memory.read m c
  | [] => by unfold Memory.write; split <;> simp [Memory.read, Ne.symm h]
  | (k, v) :: m => by
    unfold Memory.write
    split
    · split <;> simp [Memory.read, Ne.symm h]
    · split
      · rename_i _ hak
        split <;> simp [Memory.read, hak ▸ Ne.symm h, hak]
      · simp only [Memory.read]
        rw [Memory.read_write_other b h m]

theorem Memory.risesFrom_write {lo a : Nat} (b : Byte) (h : lo ≤ a) :
    ∀ {m : List Host.Cell}, Memory.risesFrom lo m = true → Memory.risesFrom lo (Memory.write m a b) = true
  | [], _ => by
    unfold Memory.write
    split <;> simp_all [Memory.risesFrom]
  | (k, v) :: m, hm => by
    have hm' := hm
    simp only [Memory.risesFrom, Bool.and_eq_true, decide_eq_true_eq] at hm
    unfold Memory.write
    split
    · split
      · exact hm'
      · rename_i hk hb
        simp only [Memory.risesFrom, Bool.and_eq_true, decide_eq_true_eq, bne_iff_ne, ne_eq]
        exact ⟨⟨h, hb⟩, ⟨by omega, by simpa using hm.1.2⟩, hm.2⟩
    · split
      · rename_i hk hak
        split
        · exact Memory.risesFrom_mono (by omega) hm.2
        · rename_i hb
          simp only [Memory.risesFrom, Bool.and_eq_true, decide_eq_true_eq, bne_iff_ne, ne_eq]
          exact ⟨⟨h, hb⟩, hak ▸ hm.2⟩
      · rename_i hk hak
        simp only [Memory.risesFrom, Bool.and_eq_true, decide_eq_true_eq]
        exact ⟨hm.1, Memory.risesFrom_write b (by omega) hm.2⟩

theorem Memory.mem_write {a : Nat} {b : Byte} {x : Host.Cell} :
    ∀ {m : List Host.Cell}, x ∈ Memory.write m a b → x ∈ m ∨ x = (a, b)
  | [], h => by
    unfold Memory.write at h
    split at h
    · exact .inl h
    · exact .inr (by simpa using h)
  | (k, v) :: m, h => by
    unfold Memory.write at h
    split at h
    · split at h
      · exact .inl h
      · rcases List.mem_cons.1 h with h | h
        · exact .inr h
        · exact .inl h
    · split at h
      · split at h
        · exact .inl (List.mem_cons_of_mem _ h)
        · rcases List.mem_cons.1 h with h | h
          · exact .inr h
          · exact .inl (List.mem_cons_of_mem _ h)
      · rcases List.mem_cons.1 h with h | h
        · exact .inl (h ▸ List.mem_cons_self)
        · rcases Memory.mem_write h with h | h
          · exact .inl (List.mem_cons_of_mem _ h)
          · exact .inr h

theorem Memory.wf_iff {m : List Host.Cell} :
    Memory.wf m = true ↔ Memory.risesFrom 0 m = true ∧ ∀ c ∈ m, c.1 < Memory.size := by
  simp [Memory.wf, List.all_eq_true]

/-- A write inside the show memory keeps the canonical form. -/
theorem Memory.wf_write {m : List Host.Cell} {a : Nat} (b : Byte) (ha : a < Memory.size)
    (h : Memory.wf m = true) : Memory.wf (Memory.write m a b) = true := by
  rw [Memory.wf_iff] at h ⊢
  refine ⟨Memory.risesFrom_write b (Nat.zero_le _) h.1, fun c hc => ?_⟩
  rcases Memory.mem_write hc with hc | hc
  · exact h.2 c hc
  · exact hc ▸ ha

theorem Memory.risesFrom_filter (p : Host.Cell → Bool) :
    ∀ {lo : Nat} {m : List Host.Cell}, Memory.risesFrom lo m = true → Memory.risesFrom lo (m.filter p) = true
  | _, [], _ => rfl
  | lo, (k, b) :: m, hm => by
    have hm' := hm
    simp only [Memory.risesFrom, Bool.and_eq_true, decide_eq_true_eq] at hm'
    have ih := Memory.risesFrom_filter p hm'.2
    by_cases hp : p (k, b) = true
    · rw [List.filter_cons_of_pos hp]
      simp only [Memory.risesFrom, Bool.and_eq_true, decide_eq_true_eq]
      exact ⟨hm'.1, ih⟩
    · rw [List.filter_cons_of_neg hp]
      exact Memory.risesFrom_mono (by omega) ih

theorem Memory.wf_filter (p : Host.Cell → Bool) {m : List Host.Cell} (h : Memory.wf m = true) :
    Memory.wf (m.filter p) = true := by
  rw [Memory.wf_iff] at h ⊢
  exact ⟨Memory.risesFrom_filter p h.1, fun c hc => h.2 c (List.mem_of_mem_filter hc)⟩

/-- What a memory whose cells are filtered reads as, whatever its form, when each address is kept or left out whole. -/
theorem Memory.read_filter (keep : Nat → Bool) (a : Nat) :
    ∀ m : List Host.Cell, Memory.read (m.filter fun c => keep c.1) a =
      if keep a then Memory.read m a else Memory.erasedByte
  | [] => by simp [Memory.read]
  | (k, b) :: m => by
    have ih := Memory.read_filter keep a m
    by_cases hk : keep k = true
    · rw [List.filter_cons_of_pos (by simpa using hk)]
      simp only [Memory.read, ih]
      by_cases hka : k = a
      · subst hka; simp [hk]
      · simp [hka]
    · rw [List.filter_cons_of_neg (by simpa using hk), ih]
      by_cases hka : k = a
      · subst hka; simp [hk]
      · simp [Memory.read, hka]

/-- R166: an erased range reads 0xFF, and every other address as before. -/
theorem Memory.read_erase (m : List Host.Cell) (lo hi a : Nat) :
    Memory.read (Memory.erase m lo hi) a =
      if lo ≤ a ∧ a < hi then Memory.erasedByte else Memory.read m a := by
  have h := Memory.read_filter (fun x => !(decide (lo ≤ x) && decide (x < hi))) a m
  rw [Memory.erase, h]
  by_cases ha : lo ≤ a ∧ a < hi
  · simp [ha.1, ha.2]
  · rw [if_neg ha, if_pos]
    simp only [Bool.not_eq_true', Bool.and_eq_false_iff, decide_eq_false_iff_not]
    omega

theorem Memory.wf_erase {m : List Host.Cell} (lo hi : Nat) (h : Memory.wf m = true) :
    Memory.wf (Memory.erase m lo hi) = true := Memory.wf_filter _ h

theorem Memory.wf_eraseCut {m : List Host.Cell} (lo hi draw : Nat) (h : Memory.wf m = true) :
    Memory.wf (Memory.eraseCut m lo hi draw) = true := Memory.wf_filter _ h

/-- R168: what an address reads as after an erase cut short. -/
theorem Memory.read_eraseCut (m : List Host.Cell) (lo hi draw a : Nat) :
    Memory.read (Memory.eraseCut m lo hi draw) a =
      if !(decide (lo ≤ a) && decide (a < hi)) || Config.cutKeepsOld draw a then Memory.read m a
      else Memory.erasedByte :=
  Memory.read_filter (fun x => !(decide (lo ≤ x) && decide (x < hi)) || Config.cutKeepsOld draw x) a m

/-! ## A run of writes over a row -/

/-- A fold of writes, at distinct addresses, each made or not, keeps the canonical form. -/
theorem Memory.wf_writes (row : Nat) (skip : Fin 256 → Bool) (v : Fin 256 → Byte) (hrow : row + 256 ≤ Memory.size) :
    ∀ (is : List (Fin 256)) {m : List Host.Cell}, Memory.wf m = true →
      Memory.wf (is.foldl (fun acc i => if skip i then acc else Memory.write acc (row + i.val) (v i)) m) = true
  | [], _, h => h
  | i :: is, m, h => by
    refine Memory.wf_writes row skip v hrow is ?_
    show Memory.wf (if skip i then m else Memory.write m (row + i.val) (v i)) = true
    split
    · exact h
    · exact Memory.wf_write _ (by have := i.isLt; omega) h

/-- What such a fold reads back as. -/
theorem Memory.read_writes (row : Nat) (skip : Fin 256 → Bool) (v : Fin 256 → Byte) (a : Nat) :
    ∀ (is : List (Fin 256)) {m : List Host.Cell}, Memory.risesFrom 0 m = true →
      Memory.read (is.foldl (fun acc i => if skip i then acc else Memory.write acc (row + i.val) (v i)) m) a =
        match is.find? (fun i => row + i.val == a) with
        | some i => if skip i then Memory.read m a else v i
        | none => Memory.read m a
  | [], _, _ => rfl
  | i :: is, m, h => by
    have hw : Memory.risesFrom 0 (if skip i then m else Memory.write m (row + i.val) (v i)) = true := by
      split
      · exact h
      · exact Memory.risesFrom_write _ (Nat.zero_le _) h
    rw [List.foldl_cons, Memory.read_writes row skip v a is hw]
    by_cases hi : row + i.val = a
    · rw [List.find?_cons_of_pos (by simpa using hi)]
      have hread : Memory.read (if skip i then m else Memory.write m (row + i.val) (v i)) a =
          if skip i then Memory.read m a else v i := by
        split
        · rfl
        · rw [← hi]; exact Memory.read_write_same _ h
      cases hf : is.find? (fun i => row + i.val == a) with
      | none => simpa using hread
      | some j =>
        have hj : row + j.val = a := by simpa using List.find?_some hf
        have hij : j = i := Fin.ext (by omega)
        subst hij
        simp only [hread]
        split <;> rfl
    · rw [List.find?_cons_of_neg (by simpa using hi)]
      have hread : Memory.read (if skip i then m else Memory.write m (row + i.val) (v i)) a = Memory.read m a := by
        split
        · rfl
        · exact Memory.read_write_other _ (Ne.symm hi) m
      rw [hread]

theorem Memory.find_position (row a : Nat) :
    (List.finRange 256).find? (fun i => row + i.val == a) =
      if h : row ≤ a ∧ a < row + 256 then some ⟨a - row, by omega⟩ else none := by
  split
  · rename_i h
    cases hf : (List.finRange 256).find? (fun i => row + i.val == a) with
    | none =>
      exact absurd (List.find?_eq_none.1 hf ⟨a - row, by omega⟩ (List.mem_finRange _)) (by simp; omega)
    | some j =>
      have hj : row + j.val = a := by simpa using List.find?_some hf
      exact congrArg some (Fin.ext (by simp; omega))
  · rename_i h
    rw [List.find?_eq_none]
    intro j _ hj
    have := j.isLt
    simp only [beq_iff_eq] at hj
    omega

theorem Memory.program_eq (m : List Host.Cell) (latch : Vector Byte 256) (row : Nat) :
    Memory.program m latch row =
      (List.finRange 256).foldl (fun acc i =>
        if (fun _ => false) i then acc else Memory.write acc (row + i.val) (Memory.programmed m latch row i)) m := by
  simp [Memory.program]

/-- R165: a programmed row reads the AND of its old bytes and the latch, and every other address as before. -/
theorem Memory.read_program {m : List Host.Cell} (latch : Vector Byte 256) (row a : Nat)
    (h : Memory.risesFrom 0 m = true) :
    Memory.read (Memory.program m latch row) a =
      if hr : row ≤ a ∧ a < row + 256 then Memory.read m a &&& latch[a - row]'(by omega) else Memory.read m a := by
  rw [Memory.program_eq, Memory.read_writes row _ _ a _ h, Memory.find_position]
  split
  · rename_i i hi
    split at hi
    · rename_i hr
      cases hi
      simp only [Bool.false_eq_true, ↓reduceIte, dif_pos hr, Memory.programmed]
      rw [show row + (a - row) = a by omega]
      rfl
    · cases hi
  · rename_i hi
    split at hi
    · cases hi
    · rename_i hr
      rw [dif_neg hr]

theorem Memory.wf_program {m : List Host.Cell} (latch : Vector Byte 256) {row : Nat}
    (hrow : row + 256 ≤ Memory.size) (h : Memory.wf m = true) : Memory.wf (Memory.program m latch row) = true := by
  rw [Memory.program_eq]
  exact Memory.wf_writes row _ _ hrow _ h

/-- R168: a programming cut short leaves each byte of the row at its old value or the AND. -/
theorem Memory.read_programCut {m : List Host.Cell} (latch : Vector Byte 256) (row draw a : Nat)
    (h : Memory.risesFrom 0 m = true) :
    Memory.read (Memory.programCut m latch row draw) a =
      if hr : row ≤ a ∧ a < row + 256 then
        if Config.cutKeepsOld draw a then Memory.read m a else Memory.read m a &&& latch[a - row]'(by omega)
      else Memory.read m a := by
  rw [Memory.programCut,
    Memory.read_writes row (fun i => Config.cutKeepsOld draw (row + i.val)) (Memory.programmed m latch row) a _ h,
    Memory.find_position]
  split
  · rename_i i hi
    split at hi
    · rename_i hr
      cases hi
      simp only [dif_pos hr, Memory.programmed]
      rw [show row + (a - row) = a by omega]
      rfl
    · cases hi
  · rename_i hi
    split at hi
    · cases hi
    · rename_i hr
      rw [dif_neg hr]

theorem Memory.wf_programCut {m : List Host.Cell} (latch : Vector Byte 256) {row : Nat} (draw : Nat)
    (hrow : row + 256 ≤ Memory.size) (h : Memory.wf m = true) :
    Memory.wf (Memory.programCut m latch row draw) = true :=
  Memory.wf_writes row _ _ hrow _ h

end Sys2Proof.Machine
end

