-- ==== Sys2Proof/Laws/PerInstr.lean ====
section
/-! SUPPORT. The family `Records`: what each command is as a maintenance command record (R162, R170), constructor by
constructor. -/

namespace Sys2Proof.Laws.Records

/-- R170: the record that a tool clocks in for a well-formed command, where it has one, is as long as its code calls for,
and is read as that command whatever bytes are clocked in behind it; an EXIT is read with the levels it then samples. -/
def Statement (i : Instr) : Prop :=
  WellFormed i = true → ∀ (levels : Levels) (bytes : List Byte), encodeRecord i = some bytes →
    (∀ l, i = .exit l → l = levels) →
    (∃ code rest, bytes = code :: rest ∧ bytes.length = recordLength code) ∧
      ∀ extra, decodeRecord levels (bytes ++ extra) = some i

/-- A command that is no maintenance command has no record. -/
theorem of_none {i : Instr} (h : encodeRecord i = none) : Statement i := by
  intro _ _ bytes hb
  rw [h] at hb
  cases hb

/-- The three bytes of an address, joined. -/
theorem address_bytes (a : BitVec 24) :
    a.extractLsb' 16 8 ++ a.extractLsb' 8 8 ++ a.extractLsb' 0 8 = a := by
  ext i hi
  simp only [BitVec.getElem_append, BitVec.getElem_extractLsb']
  split
  · rw [Nat.zero_add, BitVec.getLsbD_eq_getElem]
  · split
    · rw [show 8 + (i - 8) = i by omega, BitVec.getLsbD_eq_getElem]
    · rw [show 16 + (i - 8 - 8) = i by omega, BitVec.getLsbD_eq_getElem]

/-- The codes a record table does not list. -/
theorem unknown_length {code : Byte} (h : knownCode code = false) : recordLength code = 1 := by
  unfold recordLength
  simp only [knownCode, Bool.and_eq_false_iff, decide_eq_false_iff_not] at h
  split <;> omega

theorem unknown_decode {code : Byte} (h : knownCode code = false) (levels : Levels) (rest : List Byte) :
    decodeRecord levels (code :: rest) = some (.unknownCommand code) := by
  have hk := h
  simp only [knownCode, Bool.and_eq_false_iff, decide_eq_false_iff_not] at h
  unfold decodeRecord
  simp only []
  split <;> first | omega | simp [hk]

theorem powerOn (maintSelLow : Bool) (levels : Levels) : Statement (.powerOn maintSelLow levels) := of_none rfl
theorem powerLoss : Statement (.powerLoss) := of_none rfl
theorem resetAssert : Statement (.resetAssert) := of_none rfl
theorem resetRelease (maintSelLow : Bool) (levels : Levels) : Statement (.resetRelease maintSelLow levels) := of_none rfl
theorem inputSample (input : Fin 8) (code : BitVec 10) : Statement (.inputSample input code) := of_none rfl
theorem latchExpiry (input : Fin 8) : Statement (.latchExpiry input) := of_none rfl
theorem cooldownEnd (scene : Fin 64) : Statement (.cooldownEnd scene) := of_none rfl
theorem stepDeadline (slot : Fin 4) : Statement (.stepDeadline slot) := of_none rfl
theorem awaitTimeout (slot : Fin 4) : Statement (.awaitTimeout slot) := of_none rfl
theorem quietTimerExpiry : Statement (.quietTimerExpiry) := of_none rfl
theorem idleTimerExpiry : Statement (.idleTimerExpiry) := of_none rfl
theorem fadeStep (channel : Fin 12) : Statement (.fadeStep channel) := of_none rfl
theorem announcementDue : Statement (.announcementDue) := of_none rfl
theorem admissionTimeout (drive : Fin 4) : Statement (.admissionTimeout drive) := of_none rfl
theorem voiceEntryExpiry (station : Nat) : Statement (.voiceEntryExpiry station) := of_none rfl
theorem patienceExpiry (slot : Fin 4) (clip : Byte) : Statement (.patienceExpiry slot clip) := of_none rfl
theorem windowEnd : Statement (.windowEnd) := of_none rfl
theorem clipEnd : Statement (.clipEnd) := of_none rfl
theorem fadeOutEnd : Statement (.fadeOutEnd) := of_none rfl
theorem encoderCount (drive : Fin 4) (lineA lineB : Bool) : Statement (.encoderCount drive lineA lineB) := of_none rfl
theorem stillTimerExpiry (drive : Fin 4) : Statement (.stillTimerExpiry drive) := of_none rfl
theorem stallTimerExpiry (drive : Fin 4) : Statement (.stallTimerExpiry drive) := of_none rfl
theorem currentSample (drive : Fin 4) (code : BitVec 10) : Statement (.currentSample drive code) := of_none rfl
theorem switchClose (drive : Fin 4) (which : Switch) : Statement (.switchClose drive which) := of_none rfl
theorem haltBrakeEnd (drive : Fin 4) : Statement (.haltBrakeEnd drive) := of_none rfl
theorem retryTimerExpiry : Statement (.retryTimerExpiry) := of_none rfl
theorem giveUpTimerExpiry : Statement (.giveUpTimerExpiry) := of_none rfl
theorem grantTimerExpiry : Statement (.grantTimerExpiry) := of_none rfl
theorem settleEnd : Statement (.settleEnd) := of_none rfl
theorem haltReceived (frame : Frame) : Statement (.haltReceived frame) := of_none rfl
theorem resumeReceived (frame : Frame) : Statement (.resumeReceived frame) := of_none rfl
theorem talkIntentReceived (frame : Frame) : Statement (.talkIntentReceived frame) := of_none rfl
theorem talkBusyReceived (frame : Frame) : Statement (.talkBusyReceived frame) := of_none rfl
theorem talkEndReceived (frame : Frame) : Statement (.talkEndReceived frame) := of_none rfl
theorem blockAskReceived (frame : Frame) : Statement (.blockAskReceived frame) := of_none rfl
theorem blockGrantReceived (frame : Frame) : Statement (.blockGrantReceived frame) := of_none rfl
theorem blockHeldReceived (frame : Frame) : Statement (.blockHeldReceived frame) := of_none rfl
theorem blockReleaseReceived (frame : Frame) : Statement (.blockReleaseReceived frame) := of_none rfl
theorem cueReceived (frame : Frame) : Statement (.cueReceived frame) := of_none rfl
theorem loadReceived (frame : Frame) : Statement (.loadReceived frame) := of_none rfl
theorem peerAgeOut (station : Nat) : Statement (.peerAgeOut station) := of_none rfl
theorem transmissionAttempt : Statement (.transmissionAttempt) := of_none rfl
theorem arbitrationLost : Statement (.arbitrationLost) := of_none rfl
theorem readbackAbort : Statement (.readbackAbort) := of_none rfl
theorem transmissionSuccess : Statement (.transmissionSuccess) := of_none rfl
theorem muteTimerExpiry : Statement (.muteTimerExpiry) := of_none rfl
theorem joiningTimerExpiry : Statement (.joiningTimerExpiry) := of_none rfl
theorem lineStuck : Statement (.lineStuck) := of_none rfl
theorem stuckHoldClear : Statement (.stuckHoldClear) := of_none rfl
theorem transactionDiscard (clockedIn : List Byte) : Statement (.transactionDiscard clockedIn) := of_none rfl
theorem unknownCommand (code : Byte) : Statement (.unknownCommand code) := by
  intro hw _ _ hb _; cases hb
  have h : knownCode code = false := by simpa [WellFormed] using hw
  exact ⟨⟨_, _, rfl, (unknown_length h).symm⟩, unknown_decode h _⟩
theorem identify : Statement (.identify) := by
  intro _ _ _ hb _; cases hb
  exact ⟨⟨_, _, rfl, rfl⟩, fun _ => rfl⟩
theorem status : Statement (.status) := by
  intro _ _ _ hb _; cases hb
  exact ⟨⟨_, _, rfl, rfl⟩, fun _ => rfl⟩
theorem setAddress (address : BitVec 24) : Statement (.setAddress address) := by
  intro _ _ _ hb _; cases hb
  exact ⟨⟨_, _, rfl, rfl⟩, fun _ => congrArg (fun a => some (Instr.setAddress a)) (address_bytes address)⟩
theorem read : Statement (.read) := by
  intro _ _ _ hb _; cases hb
  exact ⟨⟨_, _, rfl, rfl⟩, fun _ => rfl⟩
theorem readNext : Statement (.readNext) := by
  intro _ _ _ hb _; cases hb
  exact ⟨⟨_, _, rfl, rfl⟩, fun _ => rfl⟩
theorem load (data : Byte) : Statement (.load data) := by
  intro _ _ _ hb _; cases hb
  exact ⟨⟨_, _, rfl, rfl⟩, fun _ => rfl⟩
theorem loadNext (data : Byte) : Statement (.loadNext data) := by
  intro _ _ _ hb _; cases hb
  exact ⟨⟨_, _, rfl, rfl⟩, fun _ => rfl⟩
theorem commit : Statement (.commit) := by
  intro _ _ _ hb _; cases hb
  exact ⟨⟨_, _, rfl, rfl⟩, fun _ => rfl⟩
theorem commitComplete : Statement (.commitComplete) := of_none rfl
theorem eraseSector : Statement (.eraseSector) := by
  intro _ _ _ hb _; cases hb
  exact ⟨⟨_, _, rfl, rfl⟩, fun _ => rfl⟩
theorem eraseAllContent : Statement (.eraseAllContent) := by
  intro _ _ _ hb _; cases hb
  exact ⟨⟨_, _, rfl, rfl⟩, fun _ => rfl⟩
theorem eraseAllEverything : Statement (.eraseAllEverything) := by
  intro _ _ _ hb _; cases hb
  exact ⟨⟨_, _, rfl, rfl⟩, fun _ => rfl⟩
theorem eraseComplete : Statement (.eraseComplete) := of_none rfl
theorem faults : Statement (.faults) := by
  intro _ _ _ hb _; cases hb
  exact ⟨⟨_, _, rfl, rfl⟩, fun _ => rfl⟩
theorem clearFaults : Statement (.clearFaults) := by
  intro _ _ _ hb _; cases hb
  exact ⟨⟨_, _, rfl, rfl⟩, fun _ => rfl⟩
theorem exit (levels : Levels) : Statement (.exit levels) := by
  intro _ _ _ hb h; cases hb
  obtain rfl := h levels rfl
  exact ⟨⟨_, _, rfl, rfl⟩, fun _ => rfl⟩
theorem switchOpen (drive : Fin 4) (which : Switch) : Statement (.switchOpen drive which) := of_none rfl
theorem supplyRiseWithResetLow : Statement (.supplyRiseWithResetLow) := of_none rfl
theorem eraseAllScopeRefused (scope : Byte) : Statement (.eraseAllScopeRefused scope) := by
  intro hw _ _ hb _; cases hb
  have h : scope ≠ 0x01#8 ∧ scope ≠ 0x02#8 := by simpa [WellFormed] using hw
  refine ⟨⟨_, _, rfl, rfl⟩, fun _ => ?_⟩
  show (if scope = 0x01#8 then _ else if scope = 0x02#8 then _ else _) = _
  rw [if_neg h.1, if_neg h.2]

end Sys2Proof.Laws.Records
end

