-- ==== Sys2Proof/Laws/Settled.lean ====
section
/-! SUPPORT. An event ends with nothing half done: its works are taken, and its announcement check is made. -/

namespace Sys2Proof.Machine

theorem cls_le_three (b : FrameBody) : b.cls ≤ 3 := by
  have h : ∀ k : FrameKind, k.cls ≤ 3 := by intro k; cases k <;> decide
  exact h b.kind

theorem removeLast_none {p : TxEntry → Bool} :
    ∀ {q : List TxEntry}, (∀ e ∈ q, p e = false) → removeLast p q = none
  | [], _ => rfl
  | x :: xs, h => by
    unfold removeLast
    rw [removeLast_none fun e he => h e (List.mem_cons_of_mem _ he)]
    simp [h x List.mem_cons_self]

/-- No work and no check is added. -/
def Quietly (s t : State) : Prop := t.works = s.works ∧ t.announceCheck = s.announceCheck

/-- A LOAD handed over raises no work and owes no check: it can only take a LOAD's place, or be discarded itself. -/
theorem handOver_load (s : State) (w g : Nat) (h : Bool) :
    Quietly s (s.handOver (.load w g h)) := by
  unfold State.handOver State.handOverFor
  simp only []
  rw [if_pos (show TxEntry.isLoad ⟨.load w g h, s.now, false, 0⟩ = true from rfl)]
  split
  · exact ⟨rfl, rfl⟩
  · split
    · exact ⟨rfl, rfl⟩
    · rename_i hno
      have hload : ∀ e ∈ s.line.queue, e.isLoad = false := fun e he => by
        cases he' : e.isLoad
        · rfl
        · exact absurd (List.any_eq_true.2 ⟨e, he, he'⟩) hno
      unfold State.enterTx
      split
      · exact ⟨rfl, rfl⟩
      · rw [removeLast_none fun e he => by simp [hload e he],
          removeLast_none fun e _ => by
            have h3 : FrameBody.cls (.load w g h) = 3 := rfl
            have := cls_le_three e.body
            simp only [h3, Bool.and_eq_false_iff, decide_eq_false_iff_not]
            omega]
        exact ⟨rfl, rfl⟩

theorem handOverLoad_works (s : State) :
    Quietly s s.handOverLoad := by
  have h := handOver_load { s with share.lastAnnouncement := some ⟨s.announcedDemand, s.halted, s.now⟩ }
    s.announcedDemand s.settings.group s.halted
  exact h

theorem announce_settled {s : State} (h : s.works = []) : Settled s.announce := by
  unfold State.announce; split
  · simp only []
    split
    · have h' := handOverLoad_works { s with announceCheck := false }
      exact ⟨h'.1.trans h, h'.2⟩
    · exact ⟨h, rfl⟩
  · rename_i hc
    exact ⟨h, by simpa using hc⟩

/-- An event that answers a next state is whole. -/
theorem event_settled {body : State → State} {s t : State} (h : event body s = .next t) : Settled t := by
  unfold event at h
  split at h
  · rename_i u hu
    cases h
    exact announce_settled (keeps_settle _ _ _ hu).2
  · cases h

/-- What an event keeps when its body may change the bay. -/
theorem keepsBay_event {s : State} {body : State → State} (hb : KeepsBay s (body s)) {t : State}
    (h : event body s = .next t) : KeepsBay s t := by
  unfold event at h
  split at h
  · rename_i u hu
    cases h
    exact hb.trans ((keeps_settle _ _ _ hu).1.trans (keeps_announce u)).toBay
  · cases h

/-- An event whose body raises no work answers a next state: its body, and the announcement it owes. -/
theorem event_next {body : State → State} {s : State} (h : (body s).works = []) :
    event body s = .next (body s).announce := by
  have : State.settle eventFuel (body s) = some (body s) := by
    show State.settle (1099511627775 + 1) (body s) = _
    unfold State.settle
    rw [h]
  unfold event
  rw [this]

end Sys2Proof.Machine
end

