-- ==== Sys2Proof/Laws/Restart.lean ====
section
/-! SUPPORT. What a restart leaves: the reading of the scene table, and the values of every start. -/

namespace Sys2Proof.Machine

theorem keeps_noteScene (s : State) (place : ScenePlace) (n : Fin 64) :
    Keeps s (s.noteScene place n) ∧ Quietly s (s.noteScene place n) := by
  cases place with
  | absent => exact ⟨.refl s, rfl, rfl⟩
  | bad => exact ⟨keeps_recordFault s _ _, rfl, rfl⟩
  | present _ => exact ⟨.refl s, rfl, rfl⟩

theorem keeps_noteScenes (places : Fin 64 → ScenePlace) :
    ∀ (l : List (Fin 64)) (s : State),
      Keeps s (l.foldl (fun t n => t.noteScene (places n) n) s) ∧
        Quietly s (l.foldl (fun t n => t.noteScene (places n) n) s)
  | [], s => ⟨.refl s, rfl, rfl⟩
  | n :: l, s => by
    have h := keeps_noteScene s (places n) n
    have h' := keeps_noteScenes places l (s.noteScene (places n) n)
    exact ⟨h.1.trans h'.1, h'.2.1.trans h.2.1, h'.2.2.trans h.2.2⟩

theorem keeps_readScenes (s : State) : Keeps s s.readScenes ∧ Quietly s s.readScenes := by
  have h0 : ∀ v, Keeps s { s with engine.scenes := v } := fun _ => .same rfl rfl
  have h := keeps_noteScenes (readScene s.memory) (List.finRange 64)
    { s with engine.scenes := Vector.ofFn fun n : Fin 64 => (readScene s.memory n).scene? }
  unfold State.readScenes
  exact ⟨(h0 _).trans h.1, h.2.1, h.2.2⟩

/-- What the reading of the scene table changes beside the table: the fault list. -/
theorem readScenes_rest (s : State) :
    s.readScenes.lamps = s.lamps ∧ s.readScenes.share = s.share ∧ s.readScenes.halt = s.halt ∧
      s.readScenes.inputs = s.inputs ∧ s.readScenes.draws = s.draws ∧
      s.readScenes.engine =
        { s.engine with scenes := Vector.ofFn fun n : Fin 64 => (readScene s.memory n).scene? } := by
  have key : ∀ (l : List (Fin 64)) (t : State),
      (l.foldl (fun t n => t.noteScene (readScene s.memory n) n) t).lamps = t.lamps ∧
      (l.foldl (fun t n => t.noteScene (readScene s.memory n) n) t).share = t.share ∧
      (l.foldl (fun t n => t.noteScene (readScene s.memory n) n) t).halt = t.halt ∧
      (l.foldl (fun t n => t.noteScene (readScene s.memory n) n) t).inputs = t.inputs ∧
      (l.foldl (fun t n => t.noteScene (readScene s.memory n) n) t).draws = t.draws ∧
      (l.foldl (fun t n => t.noteScene (readScene s.memory n) n) t).engine = t.engine := by
    intro l
    induction l with
    | nil => intro t; exact ⟨rfl, rfl, rfl, rfl, rfl, rfl⟩
    | cons n l ih =>
      intro t
      have h := ih (t.noteScene (readScene s.memory n) n)
      have hn : (t.noteScene (readScene s.memory n) n).lamps = t.lamps ∧
          (t.noteScene (readScene s.memory n) n).share = t.share ∧
          (t.noteScene (readScene s.memory n) n).halt = t.halt ∧
          (t.noteScene (readScene s.memory n) n).inputs = t.inputs ∧
          (t.noteScene (readScene s.memory n) n).draws = t.draws ∧
          (t.noteScene (readScene s.memory n) n).engine = t.engine := by
        cases readScene s.memory n <;> exact ⟨rfl, rfl, rfl, rfl, rfl, rfl⟩
      exact ⟨h.1.trans hn.1, h.2.1.trans hn.2.1, h.2.2.1.trans hn.2.2.1, h.2.2.2.1.trans hn.2.2.2.1,
        h.2.2.2.2.1.trans hn.2.2.2.2.1, h.2.2.2.2.2.trans hn.2.2.2.2.2⟩
  unfold State.readScenes
  exact key _ _

end Sys2Proof.Machine
end

