-- ==== Sys2Proof/Laws/Shares.lean ====
section
/-! SUPPORT. What a recomputation that starts no request, an announcement, a report and a hand-over do, each said once. -/

namespace Sys2Proof.Machine

variable {s : State}

/-! ## The fields of the state a recomputation's parts leave alone -/

@[simp] theorem State.formAllowance_pending (s : State) : s.formAllowance.pending = s.pending := by
  unfold State.formAllowance; with_reducible rfl
@[simp] theorem State.formAllowance_phase (s : State) : s.formAllowance.phase = s.phase := by
  unfold State.formAllowance; with_reducible rfl
@[simp] theorem State.formAllowance_clockMs (s : State) : s.formAllowance.clockMs = s.clockMs := by
  unfold State.formAllowance; with_reducible rfl
@[simp] theorem State.formAllowance_sampleClock (s : State) : s.formAllowance.sampleClock = s.sampleClock := by
  unfold State.formAllowance; with_reducible rfl
@[simp] theorem State.formAllowance_draws (s : State) : s.formAllowance.draws = s.draws := by
  unfold State.formAllowance; with_reducible rfl
@[simp] theorem State.formAllowance_memory (s : State) : s.formAllowance.memory = s.memory := by
  unfold State.formAllowance; with_reducible rfl
@[simp] theorem State.formAllowance_settings (s : State) : s.formAllowance.settings = s.settings := by
  unfold State.formAllowance; with_reducible rfl
@[simp] theorem State.formAllowance_engine (s : State) : s.formAllowance.engine = s.engine := by
  unfold State.formAllowance; with_reducible rfl
@[simp] theorem State.formAllowance_inputs (s : State) : s.formAllowance.inputs = s.inputs := by
  unfold State.formAllowance; with_reducible rfl
@[simp] theorem State.formAllowance_player (s : State) : s.formAllowance.player = s.player := by
  unfold State.formAllowance; with_reducible rfl
@[simp] theorem State.formAllowance_drives (s : State) : s.formAllowance.drives = s.drives := by
  unfold State.formAllowance; with_reducible rfl
@[simp] theorem State.formAllowance_track (s : State) : s.formAllowance.track = s.track := by
  unfold State.formAllowance; with_reducible rfl
@[simp] theorem State.formAllowance_line (s : State) : s.formAllowance.line = s.line := by
  unfold State.formAllowance; with_reducible rfl
@[simp] theorem State.formAllowance_halt (s : State) : s.formAllowance.halt = s.halt := by
  unfold State.formAllowance; with_reducible rfl
@[simp] theorem State.formAllowance_faults (s : State) : s.formAllowance.faults = s.faults := by
  unfold State.formAllowance; with_reducible rfl
@[simp] theorem State.formAllowance_port (s : State) : s.formAllowance.port = s.port := by
  unfold State.formAllowance; with_reducible rfl
@[simp] theorem State.formAllowance_works (s : State) : s.formAllowance.works = s.works := by
  unfold State.formAllowance; with_reducible rfl
@[simp] theorem State.formAllowance_lamps (s : State) : s.formAllowance.lamps = s.lamps := by
  unfold State.formAllowance; with_reducible rfl
@[simp] theorem State.formAllowance_announceCheck (s : State) : s.formAllowance.announceCheck = s.announceCheck := by
  unfold State.formAllowance; with_reducible rfl
@[simp] theorem State.handLampAllowance_pending (s : State) : s.handLampAllowance.pending = s.pending := rfl
@[simp] theorem State.handLampAllowance_phase (s : State) : s.handLampAllowance.phase = s.phase := rfl
@[simp] theorem State.handLampAllowance_clockMs (s : State) : s.handLampAllowance.clockMs = s.clockMs := rfl
@[simp] theorem State.handLampAllowance_sampleClock (s : State) :
    s.handLampAllowance.sampleClock = s.sampleClock := rfl
@[simp] theorem State.handLampAllowance_draws (s : State) : s.handLampAllowance.draws = s.draws := rfl
@[simp] theorem State.handLampAllowance_memory (s : State) : s.handLampAllowance.memory = s.memory := rfl
@[simp] theorem State.handLampAllowance_settings (s : State) : s.handLampAllowance.settings = s.settings := rfl
@[simp] theorem State.handLampAllowance_engine (s : State) : s.handLampAllowance.engine = s.engine := rfl
@[simp] theorem State.handLampAllowance_inputs (s : State) : s.handLampAllowance.inputs = s.inputs := rfl
@[simp] theorem State.handLampAllowance_player (s : State) : s.handLampAllowance.player = s.player := rfl
@[simp] theorem State.handLampAllowance_drives (s : State) : s.handLampAllowance.drives = s.drives := rfl
@[simp] theorem State.handLampAllowance_track (s : State) : s.handLampAllowance.track = s.track := rfl
@[simp] theorem State.handLampAllowance_line (s : State) : s.handLampAllowance.line = s.line := rfl
@[simp] theorem State.handLampAllowance_halt (s : State) : s.handLampAllowance.halt = s.halt := rfl
@[simp] theorem State.handLampAllowance_faults (s : State) : s.handLampAllowance.faults = s.faults := rfl
@[simp] theorem State.handLampAllowance_port (s : State) : s.handLampAllowance.port = s.port := rfl
@[simp] theorem State.handLampAllowance_works (s : State) : s.handLampAllowance.works = s.works := rfl
@[simp] theorem State.handLampAllowance_announceCheck (s : State) : s.handLampAllowance.announceCheck = s.announceCheck := rfl

@[simp] theorem State.formAllowance_share (s : State) :
    s.formAllowance.share =
      { s.share with
        lampDemand := s.lampDemand, motorDemand := s.motorDemand, startedDemand := s.startedDemand
        ownDemand := s.lampDemand + s.motorDemand, peerSum := s.peerSum
        allowance :=
          allowance s.line.state (s.lampDemand + s.motorDemand) s.peerSum (milli s.settings.capacity)
            (milli s.settings.baseShare) } := by
  unfold State.formAllowance; with_reducible rfl

@[simp] theorem State.handLampAllowance_share (s : State) :
    s.handLampAllowance.share =
      { s.share with startedDemand := s.startedDemand, lampAllowance := s.share.allowance - s.startedDemand } := rfl

/-! ## Recomputation -/

theorem motorDemand_congr {t : State} (hs : t.settings = s.settings) (hd : t.drives = s.drives)
    (ht : t.track = s.track) : t.motorDemand = s.motorDemand := by
  unfold State.motorDemand State.claims State.driveWatts; rw [hs, hd, ht]

theorem startedDemand_congr {t : State} (hs : t.settings = s.settings) (hd : t.drives = s.drives)
    (ht : t.track = s.track) : t.startedDemand = s.startedDemand := by
  unfold State.startedDemand State.runs State.driveWatts; rw [hs, hd, ht]

theorem testAdmissions_quiet (h : NothingWaits s) : s.testAdmissions = s := by
  unfold State.testAdmissions
  rcases h with h | h
  · rw [if_pos h]
  · rw [h]; simp [State.testEntries]

theorem recomputeOnce_quiet (h : NothingWaits s) :
    s.recomputeOnce = { s.formAllowance.handLampAllowance with announceCheck := true } := by
  unfold State.recomputeOnce
  rw [testAdmissions_quiet (s := s.formAllowance) h]

/-- R63 with nothing to start: the demands and the allowance, then the lamp allowance and the outputs. -/
theorem recompute_quiet (h : NothingWaits s) :
    s.recompute = { s.formAllowance.handLampAllowance with announceCheck := true } := by
  have h1 := recomputeOnce_quiet h
  have h2 : s.homedAtOnce s.recomputeOnce = [] := by
    have hd : s.recomputeOnce.drives = s.drives := by rw [h1]; simp
    unfold State.homedAtOnce
    rw [hd, List.filter_eq_nil_iff]
    intro d _
    cases s.drives[d].state <;> simp
  have h3 : State.recomputeUpTo (4 + 1) [] s = s.recomputeOnce := by
    rw [State.recomputeUpTo]
    simp only [h2, List.append_nil]
  exact h3.trans h1

theorem nothingWaits_dropEntry {d : Fin 4} (h : NothingElseWaits s d) : NothingWaits (s.dropEntry d) := by
  rcases h with h | h
  · exact .inl h
  · right
    simp only [State.dropEntry, List.filter_eq_nil_iff]
    intro e he
    simp [h e he]

/-! ## Reports -/

/-- A slot that does not wait on the subject is left alone. -/
theorem endAwait_not {subject : Subject} {k : Fin 4} (out : AwaitOutcome)
    (h : s.engine.slots[k].awaits subject = false) : s.endAwait subject out k = s := by
  unfold State.endAwait; split
  · rw [h]; rfl
  · rfl

/-- A slot that waits on the subject has its AWAIT completed, and goes on within the event. -/
theorem endAwait_awaits {subject : Subject} {k : Fin 4} {i : Running} (out : AwaitOutcome)
    (hr : s.engine.slots[k].run = some i) (h : s.engine.slots[k].awaits subject = true) :
    s.endAwait subject out k =
      State.raise (s.setSlot k { s.engine.slots[k] with run := some { i with wait := .completed out } })
        [.awaitDone k s.engine.slots[k].mark] := by
  unfold State.endAwait; rw [hr]; exact if_pos h

theorem completeAwaits_none {subject : Subject} (out : AwaitOutcome) (h : NobodyAwaits s subject) :
    s.completeAwaits subject out = s := by
  have hs : ∀ l : List (Fin 4), l.foldl (fun t k => t.endAwait subject out k) s = s := by
    intro l
    induction l with
    | nil => rfl
    | cons k l ih => rw [List.foldl_cons, endAwait_not out (h k), ih]
  exact hs _

/-- R22: a late outcome raises the failure of its requester while that instance runs and does not AWAIT the subject, and
is dropped otherwise. -/
theorem lateOutcome_cases (s : State) (subject : Subject) (r : Requester) :
    (s.lateOutcome subject r = s ∧
        (s.instanceOf r.slot r.mark = none ∨ s.engine.slots[r.slot].awaits subject = true)) ∨
      (s.lateOutcome subject r = s.raise [.lateFailure r.slot r.mark] ∧
        (∃ i, s.instanceOf r.slot r.mark = some i) ∧ s.engine.slots[r.slot].awaits subject = false) := by
  unfold State.lateOutcome
  cases s.instanceOf r.slot r.mark <;> cases s.engine.slots[r.slot].awaits subject <;> simp

/-- R10, R15: a report changes at most the handle of its own slot's instance; it raises no work when nobody AWAITs
narration. -/
theorem reportSay_frame (h : NobodyAwaits s .narration) (e : SayEntry) (hd : Handle) :
    ∃ slots, s.reportSay e hd = { s with engine.slots := slots } ∧
      ∀ i, s.engine.slots[e.slot].mark = e.mark → s.engine.slots[e.slot].run = some i → i.sayCount = e.sayNumber →
        slots[e.slot].run = some { i with handle := hd } := by
  unfold State.reportSay State.instanceOf
  by_cases hm : s.engine.slots[e.slot].mark = e.mark
  · rw [if_pos hm]
    cases hr : s.engine.slots[e.slot].run with
    | none => exact ⟨_, rfl, fun i _ hi => by simp at hi⟩
    | some i =>
      simp only []
      by_cases hc : i.sayCount = e.sayNumber
      · rw [if_pos hc]
        refine ⟨s.engine.slots.set e.slot.val { s.engine.slots[e.slot] with run := some { i with handle := hd } }
          e.slot.isLt, ?_, fun j _ hj _ => ?_⟩
        · have hk := h e.slot
          simp only []
          cases hd.outcome? with
          | none => rfl
          | some out =>
            exact endAwait_not out (by
              simp only [Slot.awaits, hr] at hk
              simpa [Slot.awaits, State.setSlot] using hk)
        · simp only [Option.some.injEq] at hj
          subst hj; simp
      · rw [if_neg hc]
        exact ⟨_, rfl, fun j _ hj hcj => by simp only [Option.some.injEq] at hj; subst hj; exact absurd hcj hc⟩
  · rw [if_neg hm]
    exact ⟨_, rfl, fun i hi => absurd hi hm⟩

/-! ## Hand-overs -/

/-- R139: a frame other than a LOAD, handed over to a queue with room. -/
theorem handOverFor_room {claim : Nat} {body : FrameBody} (hk : body.kind ≠ .load) (h : s.line.queue.length < 8) :
    s.handOverFor claim body = s.setTxQueue (insertTx ⟨body, s.now, false, claim⟩ s.line.queue) := by
  unfold State.handOverFor State.enterTx
  simp only []
  rw [if_neg (by simpa [TxEntry.isLoad] using hk), if_pos h]

theorem handOver_room {body : FrameBody} (hk : body.kind ≠ .load) (h : s.line.queue.length < 8) :
    s.handOver body = s.setTxQueue (insertTx ⟨body, s.now, false, 0⟩ s.line.queue) := handOverFor_room hk h

theorem mem_insertTx (e : TxEntry) : ∀ q : List TxEntry, e ∈ insertTx e q
  | [] => by simp [insertTx]
  | x :: xs => by
    unfold insertTx; split
    · simp
    · exact List.mem_cons_of_mem _ (mem_insertTx e xs)

theorem mem_insertTx_of_mem {e x : TxEntry} : ∀ {q : List TxEntry}, x ∈ q → x ∈ insertTx e q
  | y :: ys, h => by
    unfold insertTx; split
    · exact List.mem_cons_of_mem _ h
    · rcases List.mem_cons.1 h with rfl | h
      · exact List.mem_cons_self
      · exact List.mem_cons_of_mem _ (mem_insertTx_of_mem h)

/-- R74, R75, R138: a LOAD handed over for an announcement touches the last announcement, the LOADs of the transmit queue and
the one held aside, and at most records its own discard. -/
theorem handOverLoad_frame (s : State) :
    ∃ la q held fl,
      s.handOverLoad =
        { s with share.lastAnnouncement := some la, line.queue := q, line.heldLoad := held, faults := fl } ∧
      la = ⟨s.announcedDemand, s.halted, s.now⟩ ∧
      (∀ x ∈ s.line.queue, x.isLoad = false → x ∈ q) ∧
      (∀ x ∈ q, x ∈ s.line.queue ∨ x.isLoad = true) ∧
      (s.line.queue.length < 8 → ∃ x ∈ q, x.isLoad = true) ∧
      (fl = s.faults ∨ fl = (s.recordFault .lineOverrun 3).faults) := by
  let e : TxEntry := TxEntry.mk (.load s.announcedDemand s.settings.group s.halted) s.now false 0
  unfold State.handOverLoad State.handOver State.handOverFor
  simp only []
  rw [if_pos (show TxEntry.isLoad (TxEntry.mk (.load s.announcedDemand s.settings.group s.halted) _ false 0) = true
    from rfl)]
  split
  · rename_i hx
    obtain ⟨x, hx, hx'⟩ := List.any_eq_true.1 hx
    simp only [Bool.and_eq_true] at hx'
    exact ⟨_, s.line.queue, some e, s.faults, rfl, rfl, fun x h _ => h, fun x h => .inl h, fun _ => ⟨x, hx, hx'.1⟩,
      .inl rfl⟩
  · split
    · rename_i hx
      obtain ⟨y, hy, hy'⟩ := List.any_eq_true.1 hx
      refine ⟨_, s.line.queue.map fun x => if x.isLoad then e else x, s.line.heldLoad, s.faults, rfl, rfl,
        fun x h hl => List.mem_map.2 ⟨x, h, by simp [hl]⟩, fun x h => ?_, fun _ => ?_, .inl rfl⟩
      · obtain ⟨z, hz, rfl⟩ := List.mem_map.1 h
        split
        · exact .inr rfl
        · exact .inl hz
      · exact ⟨e, List.mem_map.2 ⟨y, hy, by rw [if_pos hy']⟩, rfl⟩
    · rename_i hno
      have hload : ∀ x ∈ s.line.queue, x.isLoad = false := fun x hx => by
        cases hx' : x.isLoad
        · rfl
        · exact absurd (List.any_eq_true.2 ⟨x, hx, hx'⟩) hno
      unfold State.enterTx
      split
      · refine ⟨_, insertTx e s.line.queue, s.line.heldLoad, s.faults, rfl, rfl, fun x h _ => mem_insertTx_of_mem h,
          fun x h => ?_, fun _ => ⟨e, mem_insertTx _ _, rfl⟩, .inl rfl⟩
        have : ∀ (q : List TxEntry), x ∈ insertTx e q → x ∈ q ∨ x = e := by
          intro q
          induction q with
          | nil => intro h; simp [insertTx] at h; exact .inr h
          | cons y ys ih =>
            intro h
            unfold insertTx at h
            split at h
            · rcases List.mem_cons.1 h with rfl | h
              · exact .inr rfl
              · exact .inl h
            · rcases List.mem_cons.1 h with rfl | h
              · exact .inl List.mem_cons_self
              · rcases ih h with h | h
                · exact .inl (List.mem_cons_of_mem _ h)
                · exact .inr h
        rcases this _ h with h | rfl
        · exact .inl h
        · exact .inr rfl
      · rename_i hfull
        rw [removeLast_none fun x he => by simp [hload x he],
          removeLast_none fun x _ => by
            have h3 : FrameBody.cls (.load s.announcedDemand s.settings.group s.halted) = 3 := rfl
            have := cls_le_three x.body
            simp only [h3, Bool.and_eq_false_iff, decide_eq_false_iff_not]
            omega]
        exact ⟨_, s.line.queue, s.line.heldLoad, (s.recordFault .lineOverrun 3).faults, rfl, rfl, fun x h _ => h,
          fun x h => .inl h, fun h => absurd h hfull, .inr rfl⟩

/-- R75: what the announcement check of an event may change. -/
theorem announce_frame (s : State) :
    ∃ la q held fl,
      s.announce =
        { s with share.lastAnnouncement := la, line.queue := q, line.heldLoad := held, faults := fl
                 announceCheck := false } ∧
      (∀ x ∈ s.line.queue, x.isLoad = false → x ∈ q) ∧
      (∀ x ∈ q, x ∈ s.line.queue ∨ x.isLoad = true) ∧
      ((∃ x ∈ s.line.queue, x.isLoad = true) → ∃ x ∈ q, x.isLoad = true) ∧
      (fl = s.faults ∨ fl = (s.recordFault .lineOverrun 3).faults) := by
  unfold State.announce
  split
  · simp only []
    split
    · obtain ⟨la, q, held, fl, h, -, h1, h2, -, h3⟩ := handOverLoad_frame { s with announceCheck := false }
      refine ⟨some la, q, held, fl, h, h1, h2, fun ⟨x, hx, hx'⟩ => ?_, h3⟩
      have hq : q = ({ s with announceCheck := false } : State).handOverLoad.line.queue := by rw [h]
      rw [hq]
      unfold State.handOverLoad State.handOver State.handOverFor
      simp only []
      rw [if_pos (show TxEntry.isLoad (TxEntry.mk (.load _ _ _) _ false 0) = true from rfl)]
      split
      · exact ⟨x, hx, hx'⟩
      · rw [if_pos (List.any_eq_true.2 ⟨x, hx, hx'⟩)]
        refine ⟨_, List.mem_map.2 ⟨x, hx, rfl⟩, ?_⟩
        rw [if_pos hx']; rfl
    · exact ⟨_, _, _, _, rfl, fun x h _ => h, fun x h => .inl h, id, .inl rfl⟩
  · rename_i hc
    refine ⟨s.share.lastAnnouncement, s.line.queue, s.line.heldLoad, s.faults, ?_, fun x h _ => h, fun x h => .inl h,
      id, .inl rfl⟩
    have hc : s.announceCheck = false := by simpa using hc
    rw [← hc]

theorem announce_none (h : s.announceCheck = false) : s.announce = s := by
  unfold State.announce; rw [h]; rfl

/-! ## Fault records -/

theorem mem_recordFault (s : State) (kind : FaultKind) (detail : Nat) :
    ∃ r ∈ (s.recordFault kind detail).faults.records, r.kind = kind ∧ r.detail = BitVec.ofNat 8 detail := by
  show ∃ r ∈ mergeFault s.faults.records kind (BitVec.ofNat 8 detail) s.showTime, _
  unfold mergeFault
  split
  · split
    · rename_i r _ h
      exact ⟨_, List.mem_append.2 (.inr List.mem_cons_self), h.1, h.2⟩
    · exact ⟨⟨kind, BitVec.ofNat 8 detail, s.showTime, s.showTime, 0⟩, by unfold appendRecord; simp, rfl, rfl⟩
  · exact ⟨_, List.mem_cons_self, rfl, rfl⟩

/-- A record made last stays when one fault of another kind follows it. -/
theorem mem_recordFault_recordFault (s : State) (kind other : FaultKind) (detail detail' : Nat) (h : kind ≠ other) :
    ∃ r ∈ ((s.recordFault kind detail).recordFault other detail').faults.records,
      r.kind = kind ∧ r.detail = BitVec.ofNat 8 detail := by
  obtain ⟨older, r, hr, hk, hd⟩ : ∃ older r, (s.recordFault kind detail).faults.records = older ++ [r] ∧
      r.kind = kind ∧ r.detail = BitVec.ofNat 8 detail := by
    show ∃ older r, mergeFault s.faults.records kind (BitVec.ofNat 8 detail) s.showTime = older ++ [r] ∧ _
    unfold mergeFault
    split
    · split
      · rename_i r _ h
        exact ⟨_, _, rfl, h.1, h.2⟩
      · exact ⟨_, _, rfl, rfl, rfl⟩
    · exact ⟨[], _, rfl, rfl, rfl⟩
  show ∃ x ∈ mergeFault (s.recordFault kind detail).faults.records other _ _, _
  rw [hr]
  unfold mergeFault
  rw [List.getLast?_concat]
  simp only []
  rw [if_neg (by rw [hk]; exact fun hx => h hx.1)]
  refine ⟨r, List.mem_append.2 (.inl ?_), hk, hd⟩
  split
  · simp
  · cases older with
    | nil => simp at *
    | cons a as => simp

/-! ## Received frames -/

theorem receive_heard {k : FrameKind} {f : Frame} (h : Hears s k f) (route : State → State) :
    s.receive k f route = route (s.hearPeer f.source) := by
  unfold State.receive
  have h1 : s.inShow = true := by simp [State.inShow, h.ready.phase]
  have h2 : s.line.state.receives = true := by simp [LineState.receives, h.line]
  rw [if_pos (by simp [h1, h2, h.valid]), if_neg h.source]

/-- An event whose body raises no work and owes no announcement. -/
theorem event_plain {body : State → State} {s : State} (hw : (body s).works = []) (hc : (body s).announceCheck = false) :
    event body s = .next (body s) := by
  rw [event_next hw, announce_none hc]

end Sys2Proof.Machine
end

