-- ==== Sys2Proof/Laws/State.lean ====
section
/-! SUPPORT. One lemma per field per update of a record of the state, each true by unfolding. -/

namespace Sys2Proof.Machine

variable (s : State)

/-! `State.setSlot` -/

@[simp] theorem setSlot_pending (k : Fin 4) (r : Slot) : (s.setSlot k r).pending = s.pending := rfl
@[simp] theorem setSlot_phase (k : Fin 4) (r : Slot) : (s.setSlot k r).phase = s.phase := rfl
@[simp] theorem setSlot_clockMs (k : Fin 4) (r : Slot) : (s.setSlot k r).clockMs = s.clockMs := rfl
@[simp] theorem setSlot_sampleClock (k : Fin 4) (r : Slot) : (s.setSlot k r).sampleClock = s.sampleClock := rfl
@[simp] theorem setSlot_draws (k : Fin 4) (r : Slot) : (s.setSlot k r).draws = s.draws := rfl
@[simp] theorem setSlot_memory (k : Fin 4) (r : Slot) : (s.setSlot k r).memory = s.memory := rfl
@[simp] theorem setSlot_settings (k : Fin 4) (r : Slot) : (s.setSlot k r).settings = s.settings := rfl
@[simp] theorem setSlot_inputs (k : Fin 4) (r : Slot) : (s.setSlot k r).inputs = s.inputs := rfl
@[simp] theorem setSlot_lamps (k : Fin 4) (r : Slot) : (s.setSlot k r).lamps = s.lamps := rfl
@[simp] theorem setSlot_share (k : Fin 4) (r : Slot) : (s.setSlot k r).share = s.share := rfl
@[simp] theorem setSlot_player (k : Fin 4) (r : Slot) : (s.setSlot k r).player = s.player := rfl
@[simp] theorem setSlot_drives (k : Fin 4) (r : Slot) : (s.setSlot k r).drives = s.drives := rfl
@[simp] theorem setSlot_track (k : Fin 4) (r : Slot) : (s.setSlot k r).track = s.track := rfl
@[simp] theorem setSlot_line (k : Fin 4) (r : Slot) : (s.setSlot k r).line = s.line := rfl
@[simp] theorem setSlot_halt (k : Fin 4) (r : Slot) : (s.setSlot k r).halt = s.halt := rfl
@[simp] theorem setSlot_faults (k : Fin 4) (r : Slot) : (s.setSlot k r).faults = s.faults := rfl
@[simp] theorem setSlot_port (k : Fin 4) (r : Slot) : (s.setSlot k r).port = s.port := rfl
@[simp] theorem setSlot_works (k : Fin 4) (r : Slot) : (s.setSlot k r).works = s.works := rfl
@[simp] theorem setSlot_announceCheck (k : Fin 4) (r : Slot) : (s.setSlot k r).announceCheck = s.announceCheck := rfl
@[simp] theorem setSlot_engine_scenes (k : Fin 4) (r : Slot) : (s.setSlot k r).engine.scenes = s.engine.scenes := rfl
@[simp] theorem setSlot_engine_slots (k : Fin 4) (r : Slot) :
    (s.setSlot k r).engine.slots = s.engine.slots.set k.val r k.isLt := rfl
@[simp] theorem setSlot_engine_channelOwners (k : Fin 4) (r : Slot) :
    (s.setSlot k r).engine.channelOwners = s.engine.channelOwners := rfl
@[simp] theorem setSlot_engine_driveOwners (k : Fin 4) (r : Slot) :
    (s.setSlot k r).engine.driveOwners = s.engine.driveOwners := rfl
@[simp] theorem setSlot_engine_cooldowns (k : Fin 4) (r : Slot) :
    (s.setSlot k r).engine.cooldowns = s.engine.cooldowns := rfl
@[simp] theorem setSlot_engine_trackRequester (k : Fin 4) (r : Slot) :
    (s.setSlot k r).engine.trackRequester = s.engine.trackRequester := rfl

/-! `State.setChannelOwner` -/

@[simp] theorem setChannelOwner_pending (c : Fin 12) (o : Option Owner) :
    (s.setChannelOwner c o).pending = s.pending := rfl
@[simp] theorem setChannelOwner_phase (c : Fin 12) (o : Option Owner) : (s.setChannelOwner c o).phase = s.phase := rfl
@[simp] theorem setChannelOwner_clockMs (c : Fin 12) (o : Option Owner) :
    (s.setChannelOwner c o).clockMs = s.clockMs := rfl
@[simp] theorem setChannelOwner_sampleClock (c : Fin 12) (o : Option Owner) :
    (s.setChannelOwner c o).sampleClock = s.sampleClock := rfl
@[simp] theorem setChannelOwner_draws (c : Fin 12) (o : Option Owner) : (s.setChannelOwner c o).draws = s.draws := rfl
@[simp] theorem setChannelOwner_memory (c : Fin 12) (o : Option Owner) :
    (s.setChannelOwner c o).memory = s.memory := rfl
@[simp] theorem setChannelOwner_settings (c : Fin 12) (o : Option Owner) :
    (s.setChannelOwner c o).settings = s.settings := rfl
@[simp] theorem setChannelOwner_inputs (c : Fin 12) (o : Option Owner) :
    (s.setChannelOwner c o).inputs = s.inputs := rfl
@[simp] theorem setChannelOwner_lamps (c : Fin 12) (o : Option Owner) : (s.setChannelOwner c o).lamps = s.lamps := rfl
@[simp] theorem setChannelOwner_share (c : Fin 12) (o : Option Owner) : (s.setChannelOwner c o).share = s.share := rfl
@[simp] theorem setChannelOwner_player (c : Fin 12) (o : Option Owner) :
    (s.setChannelOwner c o).player = s.player := rfl
@[simp] theorem setChannelOwner_drives (c : Fin 12) (o : Option Owner) :
    (s.setChannelOwner c o).drives = s.drives := rfl
@[simp] theorem setChannelOwner_track (c : Fin 12) (o : Option Owner) : (s.setChannelOwner c o).track = s.track := rfl
@[simp] theorem setChannelOwner_line (c : Fin 12) (o : Option Owner) : (s.setChannelOwner c o).line = s.line := rfl
@[simp] theorem setChannelOwner_halt (c : Fin 12) (o : Option Owner) : (s.setChannelOwner c o).halt = s.halt := rfl
@[simp] theorem setChannelOwner_faults (c : Fin 12) (o : Option Owner) :
    (s.setChannelOwner c o).faults = s.faults := rfl
@[simp] theorem setChannelOwner_port (c : Fin 12) (o : Option Owner) : (s.setChannelOwner c o).port = s.port := rfl
@[simp] theorem setChannelOwner_works (c : Fin 12) (o : Option Owner) : (s.setChannelOwner c o).works = s.works := rfl
@[simp] theorem setChannelOwner_announceCheck (c : Fin 12) (o : Option Owner) :
    (s.setChannelOwner c o).announceCheck = s.announceCheck := rfl
@[simp] theorem setChannelOwner_engine_scenes (c : Fin 12) (o : Option Owner) :
    (s.setChannelOwner c o).engine.scenes = s.engine.scenes := rfl
@[simp] theorem setChannelOwner_engine_slots (c : Fin 12) (o : Option Owner) :
    (s.setChannelOwner c o).engine.slots = s.engine.slots := rfl
@[simp] theorem setChannelOwner_engine_channelOwners (c : Fin 12) (o : Option Owner) :
    (s.setChannelOwner c o).engine.channelOwners = s.engine.channelOwners.set c.val o c.isLt := rfl
@[simp] theorem setChannelOwner_engine_driveOwners (c : Fin 12) (o : Option Owner) :
    (s.setChannelOwner c o).engine.driveOwners = s.engine.driveOwners := rfl
@[simp] theorem setChannelOwner_engine_cooldowns (c : Fin 12) (o : Option Owner) :
    (s.setChannelOwner c o).engine.cooldowns = s.engine.cooldowns := rfl
@[simp] theorem setChannelOwner_engine_trackRequester (c : Fin 12) (o : Option Owner) :
    (s.setChannelOwner c o).engine.trackRequester = s.engine.trackRequester := rfl

/-! `State.setDriveOwner` -/

@[simp] theorem setDriveOwner_pending (d : Fin 4) (o : Option Owner) : (s.setDriveOwner d o).pending = s.pending := rfl
@[simp] theorem setDriveOwner_phase (d : Fin 4) (o : Option Owner) : (s.setDriveOwner d o).phase = s.phase := rfl
@[simp] theorem setDriveOwner_clockMs (d : Fin 4) (o : Option Owner) : (s.setDriveOwner d o).clockMs = s.clockMs := rfl
@[simp] theorem setDriveOwner_sampleClock (d : Fin 4) (o : Option Owner) :
    (s.setDriveOwner d o).sampleClock = s.sampleClock := rfl
@[simp] theorem setDriveOwner_draws (d : Fin 4) (o : Option Owner) : (s.setDriveOwner d o).draws = s.draws := rfl
@[simp] theorem setDriveOwner_memory (d : Fin 4) (o : Option Owner) : (s.setDriveOwner d o).memory = s.memory := rfl
@[simp] theorem setDriveOwner_settings (d : Fin 4) (o : Option Owner) :
    (s.setDriveOwner d o).settings = s.settings := rfl
@[simp] theorem setDriveOwner_inputs (d : Fin 4) (o : Option Owner) : (s.setDriveOwner d o).inputs = s.inputs := rfl
@[simp] theorem setDriveOwner_lamps (d : Fin 4) (o : Option Owner) : (s.setDriveOwner d o).lamps = s.lamps := rfl
@[simp] theorem setDriveOwner_share (d : Fin 4) (o : Option Owner) : (s.setDriveOwner d o).share = s.share := rfl
@[simp] theorem setDriveOwner_player (d : Fin 4) (o : Option Owner) : (s.setDriveOwner d o).player = s.player := rfl
@[simp] theorem setDriveOwner_drives (d : Fin 4) (o : Option Owner) : (s.setDriveOwner d o).drives = s.drives := rfl
@[simp] theorem setDriveOwner_track (d : Fin 4) (o : Option Owner) : (s.setDriveOwner d o).track = s.track := rfl
@[simp] theorem setDriveOwner_line (d : Fin 4) (o : Option Owner) : (s.setDriveOwner d o).line = s.line := rfl
@[simp] theorem setDriveOwner_halt (d : Fin 4) (o : Option Owner) : (s.setDriveOwner d o).halt = s.halt := rfl
@[simp] theorem setDriveOwner_faults (d : Fin 4) (o : Option Owner) : (s.setDriveOwner d o).faults = s.faults := rfl
@[simp] theorem setDriveOwner_port (d : Fin 4) (o : Option Owner) : (s.setDriveOwner d o).port = s.port := rfl
@[simp] theorem setDriveOwner_works (d : Fin 4) (o : Option Owner) : (s.setDriveOwner d o).works = s.works := rfl
@[simp] theorem setDriveOwner_announceCheck (d : Fin 4) (o : Option Owner) :
    (s.setDriveOwner d o).announceCheck = s.announceCheck := rfl
@[simp] theorem setDriveOwner_engine_scenes (d : Fin 4) (o : Option Owner) :
    (s.setDriveOwner d o).engine.scenes = s.engine.scenes := rfl
@[simp] theorem setDriveOwner_engine_slots (d : Fin 4) (o : Option Owner) :
    (s.setDriveOwner d o).engine.slots = s.engine.slots := rfl
@[simp] theorem setDriveOwner_engine_channelOwners (d : Fin 4) (o : Option Owner) :
    (s.setDriveOwner d o).engine.channelOwners = s.engine.channelOwners := rfl
@[simp] theorem setDriveOwner_engine_driveOwners (d : Fin 4) (o : Option Owner) :
    (s.setDriveOwner d o).engine.driveOwners = s.engine.driveOwners.set d.val o d.isLt := rfl
@[simp] theorem setDriveOwner_engine_cooldowns (d : Fin 4) (o : Option Owner) :
    (s.setDriveOwner d o).engine.cooldowns = s.engine.cooldowns := rfl
@[simp] theorem setDriveOwner_engine_trackRequester (d : Fin 4) (o : Option Owner) :
    (s.setDriveOwner d o).engine.trackRequester = s.engine.trackRequester := rfl

/-! `State.setCooldown` -/

@[simp] theorem setCooldown_pending (n : Fin 64) (t : Option Tick) : (s.setCooldown n t).pending = s.pending := rfl
@[simp] theorem setCooldown_phase (n : Fin 64) (t : Option Tick) : (s.setCooldown n t).phase = s.phase := rfl
@[simp] theorem setCooldown_clockMs (n : Fin 64) (t : Option Tick) : (s.setCooldown n t).clockMs = s.clockMs := rfl
@[simp] theorem setCooldown_sampleClock (n : Fin 64) (t : Option Tick) :
    (s.setCooldown n t).sampleClock = s.sampleClock := rfl
@[simp] theorem setCooldown_draws (n : Fin 64) (t : Option Tick) : (s.setCooldown n t).draws = s.draws := rfl
@[simp] theorem setCooldown_memory (n : Fin 64) (t : Option Tick) : (s.setCooldown n t).memory = s.memory := rfl
@[simp] theorem setCooldown_settings (n : Fin 64) (t : Option Tick) : (s.setCooldown n t).settings = s.settings := rfl
@[simp] theorem setCooldown_inputs (n : Fin 64) (t : Option Tick) : (s.setCooldown n t).inputs = s.inputs := rfl
@[simp] theorem setCooldown_lamps (n : Fin 64) (t : Option Tick) : (s.setCooldown n t).lamps = s.lamps := rfl
@[simp] theorem setCooldown_share (n : Fin 64) (t : Option Tick) : (s.setCooldown n t).share = s.share := rfl
@[simp] theorem setCooldown_player (n : Fin 64) (t : Option Tick) : (s.setCooldown n t).player = s.player := rfl
@[simp] theorem setCooldown_drives (n : Fin 64) (t : Option Tick) : (s.setCooldown n t).drives = s.drives := rfl
@[simp] theorem setCooldown_track (n : Fin 64) (t : Option Tick) : (s.setCooldown n t).track = s.track := rfl
@[simp] theorem setCooldown_line (n : Fin 64) (t : Option Tick) : (s.setCooldown n t).line = s.line := rfl
@[simp] theorem setCooldown_halt (n : Fin 64) (t : Option Tick) : (s.setCooldown n t).halt = s.halt := rfl
@[simp] theorem setCooldown_faults (n : Fin 64) (t : Option Tick) : (s.setCooldown n t).faults = s.faults := rfl
@[simp] theorem setCooldown_port (n : Fin 64) (t : Option Tick) : (s.setCooldown n t).port = s.port := rfl
@[simp] theorem setCooldown_works (n : Fin 64) (t : Option Tick) : (s.setCooldown n t).works = s.works := rfl
@[simp] theorem setCooldown_announceCheck (n : Fin 64) (t : Option Tick) :
    (s.setCooldown n t).announceCheck = s.announceCheck := rfl
@[simp] theorem setCooldown_engine_scenes (n : Fin 64) (t : Option Tick) :
    (s.setCooldown n t).engine.scenes = s.engine.scenes := rfl
@[simp] theorem setCooldown_engine_slots (n : Fin 64) (t : Option Tick) :
    (s.setCooldown n t).engine.slots = s.engine.slots := rfl
@[simp] theorem setCooldown_engine_channelOwners (n : Fin 64) (t : Option Tick) :
    (s.setCooldown n t).engine.channelOwners = s.engine.channelOwners := rfl
@[simp] theorem setCooldown_engine_driveOwners (n : Fin 64) (t : Option Tick) :
    (s.setCooldown n t).engine.driveOwners = s.engine.driveOwners := rfl
@[simp] theorem setCooldown_engine_cooldowns (n : Fin 64) (t : Option Tick) :
    (s.setCooldown n t).engine.cooldowns = s.engine.cooldowns.set n.val t n.isLt := rfl
@[simp] theorem setCooldown_engine_trackRequester (n : Fin 64) (t : Option Tick) :
    (s.setCooldown n t).engine.trackRequester = s.engine.trackRequester := rfl

/-! `State.setInput` -/

@[simp] theorem setInput_pending (i : Fin 8) (r : Input) : (s.setInput i r).pending = s.pending := rfl
@[simp] theorem setInput_phase (i : Fin 8) (r : Input) : (s.setInput i r).phase = s.phase := rfl
@[simp] theorem setInput_clockMs (i : Fin 8) (r : Input) : (s.setInput i r).clockMs = s.clockMs := rfl
@[simp] theorem setInput_sampleClock (i : Fin 8) (r : Input) : (s.setInput i r).sampleClock = s.sampleClock := rfl
@[simp] theorem setInput_draws (i : Fin 8) (r : Input) : (s.setInput i r).draws = s.draws := rfl
@[simp] theorem setInput_memory (i : Fin 8) (r : Input) : (s.setInput i r).memory = s.memory := rfl
@[simp] theorem setInput_settings (i : Fin 8) (r : Input) : (s.setInput i r).settings = s.settings := rfl
@[simp] theorem setInput_engine (i : Fin 8) (r : Input) : (s.setInput i r).engine = s.engine := rfl
@[simp] theorem setInput_lamps (i : Fin 8) (r : Input) : (s.setInput i r).lamps = s.lamps := rfl
@[simp] theorem setInput_share (i : Fin 8) (r : Input) : (s.setInput i r).share = s.share := rfl
@[simp] theorem setInput_player (i : Fin 8) (r : Input) : (s.setInput i r).player = s.player := rfl
@[simp] theorem setInput_drives (i : Fin 8) (r : Input) : (s.setInput i r).drives = s.drives := rfl
@[simp] theorem setInput_track (i : Fin 8) (r : Input) : (s.setInput i r).track = s.track := rfl
@[simp] theorem setInput_line (i : Fin 8) (r : Input) : (s.setInput i r).line = s.line := rfl
@[simp] theorem setInput_halt (i : Fin 8) (r : Input) : (s.setInput i r).halt = s.halt := rfl
@[simp] theorem setInput_faults (i : Fin 8) (r : Input) : (s.setInput i r).faults = s.faults := rfl
@[simp] theorem setInput_port (i : Fin 8) (r : Input) : (s.setInput i r).port = s.port := rfl
@[simp] theorem setInput_works (i : Fin 8) (r : Input) : (s.setInput i r).works = s.works := rfl
@[simp] theorem setInput_announceCheck (i : Fin 8) (r : Input) : (s.setInput i r).announceCheck = s.announceCheck := rfl
@[simp] theorem setInput_inputs_inputs (i : Fin 8) (r : Input) :
    (s.setInput i r).inputs.inputs = s.inputs.inputs.set i.val r i.isLt := rfl
@[simp] theorem setInput_inputs_occupancy (i : Fin 8) (r : Input) :
    (s.setInput i r).inputs.occupancy = s.inputs.occupancy := rfl
@[simp] theorem setInput_inputs_bay (i : Fin 8) (r : Input) : (s.setInput i r).inputs.bay = s.inputs.bay := rfl
@[simp] theorem setInput_inputs_quietTimer (i : Fin 8) (r : Input) :
    (s.setInput i r).inputs.quietTimer = s.inputs.quietTimer := rfl
@[simp] theorem setInput_inputs_idleTimer (i : Fin 8) (r : Input) :
    (s.setInput i r).inputs.idleTimer = s.inputs.idleTimer := rfl

/-! `State.clearLatch` -/

@[simp] theorem clearLatch_pending (i : Fin 8) : (s.clearLatch i).pending = s.pending := rfl
@[simp] theorem clearLatch_phase (i : Fin 8) : (s.clearLatch i).phase = s.phase := rfl
@[simp] theorem clearLatch_clockMs (i : Fin 8) : (s.clearLatch i).clockMs = s.clockMs := rfl
@[simp] theorem clearLatch_sampleClock (i : Fin 8) : (s.clearLatch i).sampleClock = s.sampleClock := rfl
@[simp] theorem clearLatch_draws (i : Fin 8) : (s.clearLatch i).draws = s.draws := rfl
@[simp] theorem clearLatch_memory (i : Fin 8) : (s.clearLatch i).memory = s.memory := rfl
@[simp] theorem clearLatch_settings (i : Fin 8) : (s.clearLatch i).settings = s.settings := rfl
@[simp] theorem clearLatch_engine (i : Fin 8) : (s.clearLatch i).engine = s.engine := rfl
@[simp] theorem clearLatch_lamps (i : Fin 8) : (s.clearLatch i).lamps = s.lamps := rfl
@[simp] theorem clearLatch_share (i : Fin 8) : (s.clearLatch i).share = s.share := rfl
@[simp] theorem clearLatch_player (i : Fin 8) : (s.clearLatch i).player = s.player := rfl
@[simp] theorem clearLatch_drives (i : Fin 8) : (s.clearLatch i).drives = s.drives := rfl
@[simp] theorem clearLatch_track (i : Fin 8) : (s.clearLatch i).track = s.track := rfl
@[simp] theorem clearLatch_line (i : Fin 8) : (s.clearLatch i).line = s.line := rfl
@[simp] theorem clearLatch_halt (i : Fin 8) : (s.clearLatch i).halt = s.halt := rfl
@[simp] theorem clearLatch_faults (i : Fin 8) : (s.clearLatch i).faults = s.faults := rfl
@[simp] theorem clearLatch_port (i : Fin 8) : (s.clearLatch i).port = s.port := rfl
@[simp] theorem clearLatch_works (i : Fin 8) : (s.clearLatch i).works = s.works := rfl
@[simp] theorem clearLatch_announceCheck (i : Fin 8) : (s.clearLatch i).announceCheck = s.announceCheck := rfl
@[simp] theorem clearLatch_inputs_occupancy (i : Fin 8) : (s.clearLatch i).inputs.occupancy = s.inputs.occupancy := rfl
@[simp] theorem clearLatch_inputs_bay (i : Fin 8) : (s.clearLatch i).inputs.bay = s.inputs.bay := rfl
@[simp] theorem clearLatch_inputs_quietTimer (i : Fin 8) :
    (s.clearLatch i).inputs.quietTimer = s.inputs.quietTimer := rfl
@[simp] theorem clearLatch_inputs_idleTimer (i : Fin 8) : (s.clearLatch i).inputs.idleTimer = s.inputs.idleTimer := rfl

/-! `State.setLamp` -/

@[simp] theorem setLamp_pending (c : Fin 12) (r : Lamp) : (s.setLamp c r).pending = s.pending := rfl
@[simp] theorem setLamp_phase (c : Fin 12) (r : Lamp) : (s.setLamp c r).phase = s.phase := rfl
@[simp] theorem setLamp_clockMs (c : Fin 12) (r : Lamp) : (s.setLamp c r).clockMs = s.clockMs := rfl
@[simp] theorem setLamp_sampleClock (c : Fin 12) (r : Lamp) : (s.setLamp c r).sampleClock = s.sampleClock := rfl
@[simp] theorem setLamp_draws (c : Fin 12) (r : Lamp) : (s.setLamp c r).draws = s.draws := rfl
@[simp] theorem setLamp_memory (c : Fin 12) (r : Lamp) : (s.setLamp c r).memory = s.memory := rfl
@[simp] theorem setLamp_settings (c : Fin 12) (r : Lamp) : (s.setLamp c r).settings = s.settings := rfl
@[simp] theorem setLamp_engine (c : Fin 12) (r : Lamp) : (s.setLamp c r).engine = s.engine := rfl
@[simp] theorem setLamp_inputs (c : Fin 12) (r : Lamp) : (s.setLamp c r).inputs = s.inputs := rfl
@[simp] theorem setLamp_share (c : Fin 12) (r : Lamp) : (s.setLamp c r).share = s.share := rfl
@[simp] theorem setLamp_player (c : Fin 12) (r : Lamp) : (s.setLamp c r).player = s.player := rfl
@[simp] theorem setLamp_drives (c : Fin 12) (r : Lamp) : (s.setLamp c r).drives = s.drives := rfl
@[simp] theorem setLamp_track (c : Fin 12) (r : Lamp) : (s.setLamp c r).track = s.track := rfl
@[simp] theorem setLamp_line (c : Fin 12) (r : Lamp) : (s.setLamp c r).line = s.line := rfl
@[simp] theorem setLamp_halt (c : Fin 12) (r : Lamp) : (s.setLamp c r).halt = s.halt := rfl
@[simp] theorem setLamp_faults (c : Fin 12) (r : Lamp) : (s.setLamp c r).faults = s.faults := rfl
@[simp] theorem setLamp_port (c : Fin 12) (r : Lamp) : (s.setLamp c r).port = s.port := rfl
@[simp] theorem setLamp_works (c : Fin 12) (r : Lamp) : (s.setLamp c r).works = s.works := rfl
@[simp] theorem setLamp_announceCheck (c : Fin 12) (r : Lamp) : (s.setLamp c r).announceCheck = s.announceCheck := rfl
@[simp] theorem setLamp_lamps (c : Fin 12) (r : Lamp) : (s.setLamp c r).lamps = s.lamps.set c.val r c.isLt := rfl

/-! `State.setDrive` -/

@[simp] theorem setDrive_pending (d : Fin 4) (r : Drive) : (s.setDrive d r).pending = s.pending := rfl
@[simp] theorem setDrive_phase (d : Fin 4) (r : Drive) : (s.setDrive d r).phase = s.phase := rfl
@[simp] theorem setDrive_clockMs (d : Fin 4) (r : Drive) : (s.setDrive d r).clockMs = s.clockMs := rfl
@[simp] theorem setDrive_sampleClock (d : Fin 4) (r : Drive) : (s.setDrive d r).sampleClock = s.sampleClock := rfl
@[simp] theorem setDrive_draws (d : Fin 4) (r : Drive) : (s.setDrive d r).draws = s.draws := rfl
@[simp] theorem setDrive_memory (d : Fin 4) (r : Drive) : (s.setDrive d r).memory = s.memory := rfl
@[simp] theorem setDrive_settings (d : Fin 4) (r : Drive) : (s.setDrive d r).settings = s.settings := rfl
@[simp] theorem setDrive_engine (d : Fin 4) (r : Drive) : (s.setDrive d r).engine = s.engine := rfl
@[simp] theorem setDrive_inputs (d : Fin 4) (r : Drive) : (s.setDrive d r).inputs = s.inputs := rfl
@[simp] theorem setDrive_lamps (d : Fin 4) (r : Drive) : (s.setDrive d r).lamps = s.lamps := rfl
@[simp] theorem setDrive_share (d : Fin 4) (r : Drive) : (s.setDrive d r).share = s.share := rfl
@[simp] theorem setDrive_player (d : Fin 4) (r : Drive) : (s.setDrive d r).player = s.player := rfl
@[simp] theorem setDrive_track (d : Fin 4) (r : Drive) : (s.setDrive d r).track = s.track := rfl
@[simp] theorem setDrive_line (d : Fin 4) (r : Drive) : (s.setDrive d r).line = s.line := rfl
@[simp] theorem setDrive_halt (d : Fin 4) (r : Drive) : (s.setDrive d r).halt = s.halt := rfl
@[simp] theorem setDrive_faults (d : Fin 4) (r : Drive) : (s.setDrive d r).faults = s.faults := rfl
@[simp] theorem setDrive_port (d : Fin 4) (r : Drive) : (s.setDrive d r).port = s.port := rfl
@[simp] theorem setDrive_works (d : Fin 4) (r : Drive) : (s.setDrive d r).works = s.works := rfl
@[simp] theorem setDrive_announceCheck (d : Fin 4) (r : Drive) : (s.setDrive d r).announceCheck = s.announceCheck := rfl
@[simp] theorem setDrive_drives (d : Fin 4) (r : Drive) : (s.setDrive d r).drives = s.drives.set d.val r d.isLt := rfl

/-! `State.raise` -/

@[simp] theorem raise_pending (ws : List Work) : (s.raise ws).pending = s.pending := rfl
@[simp] theorem raise_phase (ws : List Work) : (s.raise ws).phase = s.phase := rfl
@[simp] theorem raise_clockMs (ws : List Work) : (s.raise ws).clockMs = s.clockMs := rfl
@[simp] theorem raise_sampleClock (ws : List Work) : (s.raise ws).sampleClock = s.sampleClock := rfl
@[simp] theorem raise_draws (ws : List Work) : (s.raise ws).draws = s.draws := rfl
@[simp] theorem raise_memory (ws : List Work) : (s.raise ws).memory = s.memory := rfl
@[simp] theorem raise_settings (ws : List Work) : (s.raise ws).settings = s.settings := rfl
@[simp] theorem raise_engine (ws : List Work) : (s.raise ws).engine = s.engine := rfl
@[simp] theorem raise_inputs (ws : List Work) : (s.raise ws).inputs = s.inputs := rfl
@[simp] theorem raise_lamps (ws : List Work) : (s.raise ws).lamps = s.lamps := rfl
@[simp] theorem raise_share (ws : List Work) : (s.raise ws).share = s.share := rfl
@[simp] theorem raise_player (ws : List Work) : (s.raise ws).player = s.player := rfl
@[simp] theorem raise_drives (ws : List Work) : (s.raise ws).drives = s.drives := rfl
@[simp] theorem raise_track (ws : List Work) : (s.raise ws).track = s.track := rfl
@[simp] theorem raise_line (ws : List Work) : (s.raise ws).line = s.line := rfl
@[simp] theorem raise_halt (ws : List Work) : (s.raise ws).halt = s.halt := rfl
@[simp] theorem raise_faults (ws : List Work) : (s.raise ws).faults = s.faults := rfl
@[simp] theorem raise_port (ws : List Work) : (s.raise ws).port = s.port := rfl
@[simp] theorem raise_announceCheck (ws : List Work) : (s.raise ws).announceCheck = s.announceCheck := rfl
@[simp] theorem raise_works (ws : List Work) : (s.raise ws).works = s.works ++ ws := rfl

/-! `State.setRun` -/

@[simp] theorem setRun_pending (k : Fin 4) (run : Option Running) : (s.setRun k run).pending = s.pending := rfl
@[simp] theorem setRun_phase (k : Fin 4) (run : Option Running) : (s.setRun k run).phase = s.phase := rfl
@[simp] theorem setRun_clockMs (k : Fin 4) (run : Option Running) : (s.setRun k run).clockMs = s.clockMs := rfl
@[simp] theorem setRun_sampleClock (k : Fin 4) (run : Option Running) :
    (s.setRun k run).sampleClock = s.sampleClock := rfl
@[simp] theorem setRun_draws (k : Fin 4) (run : Option Running) : (s.setRun k run).draws = s.draws := rfl
@[simp] theorem setRun_memory (k : Fin 4) (run : Option Running) : (s.setRun k run).memory = s.memory := rfl
@[simp] theorem setRun_settings (k : Fin 4) (run : Option Running) : (s.setRun k run).settings = s.settings := rfl
@[simp] theorem setRun_inputs (k : Fin 4) (run : Option Running) : (s.setRun k run).inputs = s.inputs := rfl
@[simp] theorem setRun_lamps (k : Fin 4) (run : Option Running) : (s.setRun k run).lamps = s.lamps := rfl
@[simp] theorem setRun_share (k : Fin 4) (run : Option Running) : (s.setRun k run).share = s.share := rfl
@[simp] theorem setRun_player (k : Fin 4) (run : Option Running) : (s.setRun k run).player = s.player := rfl
@[simp] theorem setRun_drives (k : Fin 4) (run : Option Running) : (s.setRun k run).drives = s.drives := rfl
@[simp] theorem setRun_track (k : Fin 4) (run : Option Running) : (s.setRun k run).track = s.track := rfl
@[simp] theorem setRun_line (k : Fin 4) (run : Option Running) : (s.setRun k run).line = s.line := rfl
@[simp] theorem setRun_halt (k : Fin 4) (run : Option Running) : (s.setRun k run).halt = s.halt := rfl
@[simp] theorem setRun_faults (k : Fin 4) (run : Option Running) : (s.setRun k run).faults = s.faults := rfl
@[simp] theorem setRun_port (k : Fin 4) (run : Option Running) : (s.setRun k run).port = s.port := rfl
@[simp] theorem setRun_works (k : Fin 4) (run : Option Running) : (s.setRun k run).works = s.works := rfl
@[simp] theorem setRun_announceCheck (k : Fin 4) (run : Option Running) :
    (s.setRun k run).announceCheck = s.announceCheck := rfl
@[simp] theorem setRun_engine_scenes (k : Fin 4) (run : Option Running) :
    (s.setRun k run).engine.scenes = s.engine.scenes := rfl
@[simp] theorem setRun_engine_channelOwners (k : Fin 4) (run : Option Running) :
    (s.setRun k run).engine.channelOwners = s.engine.channelOwners := rfl
@[simp] theorem setRun_engine_driveOwners (k : Fin 4) (run : Option Running) :
    (s.setRun k run).engine.driveOwners = s.engine.driveOwners := rfl
@[simp] theorem setRun_engine_cooldowns (k : Fin 4) (run : Option Running) :
    (s.setRun k run).engine.cooldowns = s.engine.cooldowns := rfl
@[simp] theorem setRun_engine_trackRequester (k : Fin 4) (run : Option Running) :
    (s.setRun k run).engine.trackRequester = s.engine.trackRequester := rfl

/-! `State.setSayQueue` -/

@[simp] theorem setSayQueue_pending (q : List SayEntry) : (s.setSayQueue q).pending = s.pending := rfl
@[simp] theorem setSayQueue_phase (q : List SayEntry) : (s.setSayQueue q).phase = s.phase := rfl
@[simp] theorem setSayQueue_clockMs (q : List SayEntry) : (s.setSayQueue q).clockMs = s.clockMs := rfl
@[simp] theorem setSayQueue_sampleClock (q : List SayEntry) : (s.setSayQueue q).sampleClock = s.sampleClock := rfl
@[simp] theorem setSayQueue_draws (q : List SayEntry) : (s.setSayQueue q).draws = s.draws := rfl
@[simp] theorem setSayQueue_memory (q : List SayEntry) : (s.setSayQueue q).memory = s.memory := rfl
@[simp] theorem setSayQueue_settings (q : List SayEntry) : (s.setSayQueue q).settings = s.settings := rfl
@[simp] theorem setSayQueue_engine (q : List SayEntry) : (s.setSayQueue q).engine = s.engine := rfl
@[simp] theorem setSayQueue_inputs (q : List SayEntry) : (s.setSayQueue q).inputs = s.inputs := rfl
@[simp] theorem setSayQueue_lamps (q : List SayEntry) : (s.setSayQueue q).lamps = s.lamps := rfl
@[simp] theorem setSayQueue_share (q : List SayEntry) : (s.setSayQueue q).share = s.share := rfl
@[simp] theorem setSayQueue_drives (q : List SayEntry) : (s.setSayQueue q).drives = s.drives := rfl
@[simp] theorem setSayQueue_track (q : List SayEntry) : (s.setSayQueue q).track = s.track := rfl
@[simp] theorem setSayQueue_line (q : List SayEntry) : (s.setSayQueue q).line = s.line := rfl
@[simp] theorem setSayQueue_halt (q : List SayEntry) : (s.setSayQueue q).halt = s.halt := rfl
@[simp] theorem setSayQueue_faults (q : List SayEntry) : (s.setSayQueue q).faults = s.faults := rfl
@[simp] theorem setSayQueue_port (q : List SayEntry) : (s.setSayQueue q).port = s.port := rfl
@[simp] theorem setSayQueue_works (q : List SayEntry) : (s.setSayQueue q).works = s.works := rfl
@[simp] theorem setSayQueue_announceCheck (q : List SayEntry) : (s.setSayQueue q).announceCheck = s.announceCheck := rfl
@[simp] theorem setSayQueue_player_state (q : List SayEntry) : (s.setSayQueue q).player.state = s.player.state := rfl
@[simp] theorem setSayQueue_player_current (q : List SayEntry) :
    (s.setSayQueue q).player.current = s.player.current := rfl
@[simp] theorem setSayQueue_player_intentSent (q : List SayEntry) :
    (s.setSayQueue q).player.intentSent = s.player.intentSent := rfl
@[simp] theorem setSayQueue_player_windowEnd (q : List SayEntry) :
    (s.setSayQueue q).player.windowEnd = s.player.windowEnd := rfl
@[simp] theorem setSayQueue_player_playStart (q : List SayEntry) :
    (s.setSayQueue q).player.playStart = s.player.playStart := rfl
@[simp] theorem setSayQueue_player_fadeOutStart (q : List SayEntry) :
    (s.setSayQueue q).player.fadeOutStart = s.player.fadeOutStart := rfl
@[simp] theorem setSayQueue_player_queue (q : List SayEntry) : (s.setSayQueue q).player.queue = q := rfl
@[simp] theorem setSayQueue_player_voices (q : List SayEntry) : (s.setSayQueue q).player.voices = s.player.voices := rfl
@[simp] theorem setSayQueue_player_clips (q : List SayEntry) : (s.setSayQueue q).player.clips = s.player.clips := rfl
@[simp] theorem setSayQueue_player_audioOutput (q : List SayEntry) :
    (s.setSayQueue q).player.audioOutput = s.player.audioOutput := rfl
@[simp] theorem setSayQueue_player_samplesSent (q : List SayEntry) :
    (s.setSayQueue q).player.samplesSent = s.player.samplesSent := rfl
@[simp] theorem setSayQueue_player_entered (q : List SayEntry) :
    (s.setSayQueue q).player.entered = s.player.entered := rfl
@[simp] theorem setSayQueue_player_claim (q : List SayEntry) : (s.setSayQueue q).player.claim = s.player.claim := rfl
@[simp] theorem setSayQueue_player_bounced (q : List SayEntry) :
    (s.setSayQueue q).player.bounced = s.player.bounced := rfl

/-! `State.setTxQueue` -/

@[simp] theorem setTxQueue_pending (q : List TxEntry) : (s.setTxQueue q).pending = s.pending := rfl
@[simp] theorem setTxQueue_phase (q : List TxEntry) : (s.setTxQueue q).phase = s.phase := rfl
@[simp] theorem setTxQueue_clockMs (q : List TxEntry) : (s.setTxQueue q).clockMs = s.clockMs := rfl
@[simp] theorem setTxQueue_sampleClock (q : List TxEntry) : (s.setTxQueue q).sampleClock = s.sampleClock := rfl
@[simp] theorem setTxQueue_draws (q : List TxEntry) : (s.setTxQueue q).draws = s.draws := rfl
@[simp] theorem setTxQueue_memory (q : List TxEntry) : (s.setTxQueue q).memory = s.memory := rfl
@[simp] theorem setTxQueue_settings (q : List TxEntry) : (s.setTxQueue q).settings = s.settings := rfl
@[simp] theorem setTxQueue_engine (q : List TxEntry) : (s.setTxQueue q).engine = s.engine := rfl
@[simp] theorem setTxQueue_inputs (q : List TxEntry) : (s.setTxQueue q).inputs = s.inputs := rfl
@[simp] theorem setTxQueue_lamps (q : List TxEntry) : (s.setTxQueue q).lamps = s.lamps := rfl
@[simp] theorem setTxQueue_share (q : List TxEntry) : (s.setTxQueue q).share = s.share := rfl
@[simp] theorem setTxQueue_player (q : List TxEntry) : (s.setTxQueue q).player = s.player := rfl
@[simp] theorem setTxQueue_drives (q : List TxEntry) : (s.setTxQueue q).drives = s.drives := rfl
@[simp] theorem setTxQueue_track (q : List TxEntry) : (s.setTxQueue q).track = s.track := rfl
@[simp] theorem setTxQueue_halt (q : List TxEntry) : (s.setTxQueue q).halt = s.halt := rfl
@[simp] theorem setTxQueue_faults (q : List TxEntry) : (s.setTxQueue q).faults = s.faults := rfl
@[simp] theorem setTxQueue_port (q : List TxEntry) : (s.setTxQueue q).port = s.port := rfl
@[simp] theorem setTxQueue_works (q : List TxEntry) : (s.setTxQueue q).works = s.works := rfl
@[simp] theorem setTxQueue_announceCheck (q : List TxEntry) : (s.setTxQueue q).announceCheck = s.announceCheck := rfl
@[simp] theorem setTxQueue_line_state (q : List TxEntry) : (s.setTxQueue q).line.state = s.line.state := rfl
@[simp] theorem setTxQueue_line_queue (q : List TxEntry) : (s.setTxQueue q).line.queue = q := rfl
@[simp] theorem setTxQueue_line_heldLoad (q : List TxEntry) : (s.setTxQueue q).line.heldLoad = s.line.heldLoad := rfl
@[simp] theorem setTxQueue_line_errors (q : List TxEntry) : (s.setTxQueue q).line.errors = s.line.errors := rfl
@[simp] theorem setTxQueue_line_muteTimer (q : List TxEntry) : (s.setTxQueue q).line.muteTimer = s.line.muteTimer := rfl
@[simp] theorem setTxQueue_line_joiningTimer (q : List TxEntry) :
    (s.setTxQueue q).line.joiningTimer = s.line.joiningTimer := rfl
@[simp] theorem setTxQueue_line_stuckHold (q : List TxEntry) : (s.setTxQueue q).line.stuckHold = s.line.stuckHold := rfl
@[simp] theorem setTxQueue_line_joiningHalt (q : List TxEntry) :
    (s.setTxQueue q).line.joiningHalt = s.line.joiningHalt := rfl
@[simp] theorem setTxQueue_line_peers (q : List TxEntry) : (s.setTxQueue q).line.peers = s.line.peers := rfl
@[simp] theorem setTxQueue_line_peerFull (q : List TxEntry) : (s.setTxQueue q).line.peerFull = s.line.peerFull := rfl

/-! `State.setPeers` -/

@[simp] theorem setPeers_pending (ps : List Peer) : (s.setPeers ps).pending = s.pending := rfl
@[simp] theorem setPeers_phase (ps : List Peer) : (s.setPeers ps).phase = s.phase := rfl
@[simp] theorem setPeers_clockMs (ps : List Peer) : (s.setPeers ps).clockMs = s.clockMs := rfl
@[simp] theorem setPeers_sampleClock (ps : List Peer) : (s.setPeers ps).sampleClock = s.sampleClock := rfl
@[simp] theorem setPeers_draws (ps : List Peer) : (s.setPeers ps).draws = s.draws := rfl
@[simp] theorem setPeers_memory (ps : List Peer) : (s.setPeers ps).memory = s.memory := rfl
@[simp] theorem setPeers_settings (ps : List Peer) : (s.setPeers ps).settings = s.settings := rfl
@[simp] theorem setPeers_engine (ps : List Peer) : (s.setPeers ps).engine = s.engine := rfl
@[simp] theorem setPeers_inputs (ps : List Peer) : (s.setPeers ps).inputs = s.inputs := rfl
@[simp] theorem setPeers_lamps (ps : List Peer) : (s.setPeers ps).lamps = s.lamps := rfl
@[simp] theorem setPeers_share (ps : List Peer) : (s.setPeers ps).share = s.share := rfl
@[simp] theorem setPeers_player (ps : List Peer) : (s.setPeers ps).player = s.player := rfl
@[simp] theorem setPeers_drives (ps : List Peer) : (s.setPeers ps).drives = s.drives := rfl
@[simp] theorem setPeers_track (ps : List Peer) : (s.setPeers ps).track = s.track := rfl
@[simp] theorem setPeers_halt (ps : List Peer) : (s.setPeers ps).halt = s.halt := rfl
@[simp] theorem setPeers_faults (ps : List Peer) : (s.setPeers ps).faults = s.faults := rfl
@[simp] theorem setPeers_port (ps : List Peer) : (s.setPeers ps).port = s.port := rfl
@[simp] theorem setPeers_works (ps : List Peer) : (s.setPeers ps).works = s.works := rfl
@[simp] theorem setPeers_announceCheck (ps : List Peer) : (s.setPeers ps).announceCheck = s.announceCheck := rfl
@[simp] theorem setPeers_line_state (ps : List Peer) : (s.setPeers ps).line.state = s.line.state := rfl
@[simp] theorem setPeers_line_queue (ps : List Peer) : (s.setPeers ps).line.queue = s.line.queue := rfl
@[simp] theorem setPeers_line_heldLoad (ps : List Peer) : (s.setPeers ps).line.heldLoad = s.line.heldLoad := rfl
@[simp] theorem setPeers_line_errors (ps : List Peer) : (s.setPeers ps).line.errors = s.line.errors := rfl
@[simp] theorem setPeers_line_muteTimer (ps : List Peer) : (s.setPeers ps).line.muteTimer = s.line.muteTimer := rfl
@[simp] theorem setPeers_line_joiningTimer (ps : List Peer) :
    (s.setPeers ps).line.joiningTimer = s.line.joiningTimer := rfl
@[simp] theorem setPeers_line_stuckHold (ps : List Peer) : (s.setPeers ps).line.stuckHold = s.line.stuckHold := rfl
@[simp] theorem setPeers_line_joiningHalt (ps : List Peer) :
    (s.setPeers ps).line.joiningHalt = s.line.joiningHalt := rfl
@[simp] theorem setPeers_line_peers (ps : List Peer) : (s.setPeers ps).line.peers = ps := rfl
@[simp] theorem setPeers_line_peerFull (ps : List Peer) : (s.setPeers ps).line.peerFull = s.line.peerFull := rfl

/-! `State.setVoice` -/

@[simp] theorem setVoice_pending (n : Nat) (f : VoiceEntry → VoiceEntry) : (s.setVoice n f).pending = s.pending := rfl
@[simp] theorem setVoice_phase (n : Nat) (f : VoiceEntry → VoiceEntry) : (s.setVoice n f).phase = s.phase := rfl
@[simp] theorem setVoice_clockMs (n : Nat) (f : VoiceEntry → VoiceEntry) : (s.setVoice n f).clockMs = s.clockMs := rfl
@[simp] theorem setVoice_sampleClock (n : Nat) (f : VoiceEntry → VoiceEntry) : (s.setVoice n f).sampleClock = s.sampleClock := rfl
@[simp] theorem setVoice_draws (n : Nat) (f : VoiceEntry → VoiceEntry) : (s.setVoice n f).draws = s.draws := rfl
@[simp] theorem setVoice_memory (n : Nat) (f : VoiceEntry → VoiceEntry) : (s.setVoice n f).memory = s.memory := rfl
@[simp] theorem setVoice_settings (n : Nat) (f : VoiceEntry → VoiceEntry) : (s.setVoice n f).settings = s.settings := rfl
@[simp] theorem setVoice_engine (n : Nat) (f : VoiceEntry → VoiceEntry) : (s.setVoice n f).engine = s.engine := rfl
@[simp] theorem setVoice_inputs (n : Nat) (f : VoiceEntry → VoiceEntry) : (s.setVoice n f).inputs = s.inputs := rfl
@[simp] theorem setVoice_lamps (n : Nat) (f : VoiceEntry → VoiceEntry) : (s.setVoice n f).lamps = s.lamps := rfl
@[simp] theorem setVoice_share (n : Nat) (f : VoiceEntry → VoiceEntry) : (s.setVoice n f).share = s.share := rfl
@[simp] theorem setVoice_drives (n : Nat) (f : VoiceEntry → VoiceEntry) : (s.setVoice n f).drives = s.drives := rfl
@[simp] theorem setVoice_track (n : Nat) (f : VoiceEntry → VoiceEntry) : (s.setVoice n f).track = s.track := rfl
@[simp] theorem setVoice_line (n : Nat) (f : VoiceEntry → VoiceEntry) : (s.setVoice n f).line = s.line := rfl
@[simp] theorem setVoice_halt (n : Nat) (f : VoiceEntry → VoiceEntry) : (s.setVoice n f).halt = s.halt := rfl
@[simp] theorem setVoice_faults (n : Nat) (f : VoiceEntry → VoiceEntry) : (s.setVoice n f).faults = s.faults := rfl
@[simp] theorem setVoice_port (n : Nat) (f : VoiceEntry → VoiceEntry) : (s.setVoice n f).port = s.port := rfl
@[simp] theorem setVoice_works (n : Nat) (f : VoiceEntry → VoiceEntry) : (s.setVoice n f).works = s.works := rfl
@[simp] theorem setVoice_announceCheck (n : Nat) (f : VoiceEntry → VoiceEntry) :
    (s.setVoice n f).announceCheck = s.announceCheck := rfl
@[simp] theorem setVoice_player_state (n : Nat) (f : VoiceEntry → VoiceEntry) :
    (s.setVoice n f).player.state = s.player.state := rfl
@[simp] theorem setVoice_player_current (n : Nat) (f : VoiceEntry → VoiceEntry) :
    (s.setVoice n f).player.current = s.player.current := rfl
@[simp] theorem setVoice_player_intentSent (n : Nat) (f : VoiceEntry → VoiceEntry) :
    (s.setVoice n f).player.intentSent = s.player.intentSent := rfl
@[simp] theorem setVoice_player_windowEnd (n : Nat) (f : VoiceEntry → VoiceEntry) :
    (s.setVoice n f).player.windowEnd = s.player.windowEnd := rfl
@[simp] theorem setVoice_player_playStart (n : Nat) (f : VoiceEntry → VoiceEntry) :
    (s.setVoice n f).player.playStart = s.player.playStart := rfl
@[simp] theorem setVoice_player_fadeOutStart (n : Nat) (f : VoiceEntry → VoiceEntry) :
    (s.setVoice n f).player.fadeOutStart = s.player.fadeOutStart := rfl
@[simp] theorem setVoice_player_queue (n : Nat) (f : VoiceEntry → VoiceEntry) :
    (s.setVoice n f).player.queue = s.player.queue := rfl
@[simp] theorem setVoice_player_clips (n : Nat) (f : VoiceEntry → VoiceEntry) :
    (s.setVoice n f).player.clips = s.player.clips := rfl
@[simp] theorem setVoice_player_audioOutput (n : Nat) (f : VoiceEntry → VoiceEntry) :
    (s.setVoice n f).player.audioOutput = s.player.audioOutput := rfl
@[simp] theorem setVoice_player_samplesSent (n : Nat) (f : VoiceEntry → VoiceEntry) :
    (s.setVoice n f).player.samplesSent = s.player.samplesSent := rfl
@[simp] theorem setVoice_player_entered (n : Nat) (f : VoiceEntry → VoiceEntry) :
    (s.setVoice n f).player.entered = s.player.entered := rfl
@[simp] theorem setVoice_player_claim (n : Nat) (f : VoiceEntry → VoiceEntry) :
    (s.setVoice n f).player.claim = s.player.claim := rfl
@[simp] theorem setVoice_player_bounced (n : Nat) (f : VoiceEntry → VoiceEntry) :
    (s.setVoice n f).player.bounced = s.player.bounced := rfl

/-! `State.answer` -/

@[simp] theorem answer_pending (bytes : List Byte) : (s.answer bytes).pending = s.pending := rfl
@[simp] theorem answer_phase (bytes : List Byte) : (s.answer bytes).phase = s.phase := rfl
@[simp] theorem answer_clockMs (bytes : List Byte) : (s.answer bytes).clockMs = s.clockMs := rfl
@[simp] theorem answer_sampleClock (bytes : List Byte) : (s.answer bytes).sampleClock = s.sampleClock := rfl
@[simp] theorem answer_draws (bytes : List Byte) : (s.answer bytes).draws = s.draws := rfl
@[simp] theorem answer_memory (bytes : List Byte) : (s.answer bytes).memory = s.memory := rfl
@[simp] theorem answer_settings (bytes : List Byte) : (s.answer bytes).settings = s.settings := rfl
@[simp] theorem answer_engine (bytes : List Byte) : (s.answer bytes).engine = s.engine := rfl
@[simp] theorem answer_inputs (bytes : List Byte) : (s.answer bytes).inputs = s.inputs := rfl
@[simp] theorem answer_lamps (bytes : List Byte) : (s.answer bytes).lamps = s.lamps := rfl
@[simp] theorem answer_share (bytes : List Byte) : (s.answer bytes).share = s.share := rfl
@[simp] theorem answer_player (bytes : List Byte) : (s.answer bytes).player = s.player := rfl
@[simp] theorem answer_drives (bytes : List Byte) : (s.answer bytes).drives = s.drives := rfl
@[simp] theorem answer_track (bytes : List Byte) : (s.answer bytes).track = s.track := rfl
@[simp] theorem answer_line (bytes : List Byte) : (s.answer bytes).line = s.line := rfl
@[simp] theorem answer_halt (bytes : List Byte) : (s.answer bytes).halt = s.halt := rfl
@[simp] theorem answer_faults (bytes : List Byte) : (s.answer bytes).faults = s.faults := rfl
@[simp] theorem answer_works (bytes : List Byte) : (s.answer bytes).works = s.works := rfl
@[simp] theorem answer_announceCheck (bytes : List Byte) : (s.answer bytes).announceCheck = s.announceCheck := rfl
@[simp] theorem answer_port_pointer (bytes : List Byte) : (s.answer bytes).port.pointer = s.port.pointer := rfl
@[simp] theorem answer_port_latch (bytes : List Byte) : (s.answer bytes).port.latch = s.port.latch := rfl
@[simp] theorem answer_port_commitDone (bytes : List Byte) : (s.answer bytes).port.commitDone = s.port.commitDone := rfl
@[simp] theorem answer_port_eraseDone (bytes : List Byte) : (s.answer bytes).port.eraseDone = s.port.eraseDone := rfl
@[simp] theorem answer_port_late (bytes : List Byte) : (s.answer bytes).port.late = s.port.late := rfl
@[simp] theorem answer_port_refused (bytes : List Byte) : (s.answer bytes).port.refused = s.port.refused := rfl
@[simp] theorem answer_port_operation (bytes : List Byte) : (s.answer bytes).port.operation = s.port.operation := rfl
@[simp] theorem answer_port_answer (bytes : List Byte) : (s.answer bytes).port.answer = bytes := rfl

end Sys2Proof.Machine
end

