-- ==== Sys2Proof/Tests/Slice0.lean ====
section
/-! SUPPORT. The model's own tests: the checks of WellFormed, the formats, single commands on small states with results
worked out from the manual, and for each statement a state that meets its hypotheses. -/

set_option Elab.async false

namespace Sys2Proof.Tests

open Sys2Proof.Machine

/-! ## Helpers -/

/-- Whether an outcome is a next state that meets a test. -/
def nextIs (o : Host.Outcome State Fault Refusal) (p : State → Bool) : Bool :=
  match o with
  | .next t => p t
  | _ => false

/-- Field inputs at rest: every visitor input high, every switch open, every encoder line low. -/
def rest : Levels :=
  ⟨Vector.replicate 8 1023#10, Vector.replicate 4 false, Vector.replicate 4 false, Vector.replicate 4 false,
    Vector.replicate 4 false⟩

/-- Settings of station 5: one lamp channel of 100 W, four drives of 40 W, one input of each kind but UNUSED. -/
def demoSettings : Settings :=
  { station := 5, group := 1, trackMode := true, capacity := 400, baseShare := 100, hearing := [7], upstream := 4
    downstream := 6, settleRun := 50, bayVolume := 1000, duckLevel := 250, idleSeconds := 10, quietSeconds := 60
    faultMask := 0x0400#16, attendMask := 0x0000#16
    channels := Vector.ofFn fun c : Fin 12 => if c = 0 then ⟨100, 200, 300⟩ else ⟨0, 0, 0⟩
    drives := Vector.replicate 4 ⟨40, Vector.replicate 4 500, 0, 65535, 100, 512, 4, 50, false⟩
    inputs := Vector.ofFn fun i : Fin 8 =>
      match i with
      | 0 => ⟨.button, 50, 500, 100⟩
      | 1 => ⟨.beam, 50, 500, 0⟩
      | 2 => ⟨.entry, 50, 500, 0⟩
      | 3 => ⟨.exit, 50, 500, 0⟩
      | 4 => ⟨.stop, 50, 500, 0⟩
      | 5 => ⟨.resume, 50, 500, 0⟩
      | 6 => ⟨.arrive, 50, 500, 0⟩
      | 7 => ⟨.depart, 50, 500, 0⟩ }

/-- A station in its show at show time 10000, its line ACTIVE, with nothing going on. -/
def demo : State :=
  { State.reset with
    phase := .running, clockMs := 100000, settings := demoSettings, line := { Line.off with state := .active }
    drives := Vector.ofFn fun d : Fin 4 => { Drive.atRestart with state := if d = 3 then .track else .idle }
    player.voices := [⟨7, false, none⟩], inputs.idleTimer := some 10000
    share.lastAnnouncement := some ⟨0, false, 10000⟩ }

/-- A station in maintenance with an erased memory. -/
def port : State := { State.reset with phase := .maintenance }

/-- The demo with one drive's record. -/
def withDrive (s : State) (d : Fin 4) (r : Drive) : State := s.setDrive d r

/-- A scene of one or two steps. -/
def scene (trigger : Trigger) (steps : List StepRecord) : Scene :=
  ⟨9, trigger, 3, .hold, false, 2, false, steps⟩

def withScene (s : State) (sc : Scene) : State := { s with engine.scenes := s.engine.scenes.set 0 (some sc) }

/-- A slot running scene 0 at its first step. -/
def running (wait : Wait) : Slot := ⟨some ⟨0, 3, 9000, 0, wait, .none, 1⟩, 5⟩

def fromStation (n : Nat) (b : FrameBody) : Frame := encodeFrame n b

/-! ## WellFormed: an ill-formed term for each check -/

def kinds : List FrameKind :=
  [.halt, .resume, .talkIntent, .talkBusy, .talkEnd, .blockAsk, .blockGrant, .blockHeld, .blockRelease, .cue, .load]

/-- Codes 11 to 15 are no kind (R169), so no received-frame command may carry one. -/
theorem test_wellFormed_kind : (kinds.all fun k => !WellFormed (frameCommand k ⟨0x05B0#16, [], 0, 0⟩)) = true := by
  decide

/-- A frame with fewer payload bytes than its header says. -/
theorem test_wellFormed_payload :
    (kinds.all fun k =>
      !WellFormed (frameCommand k ⟨BitVec.ofNat 16 (k.code * 16 + 5), [0#8], 0, 0⟩)) = true := by decide

theorem test_wellFormed_voice : WellFormed (.voiceEntryExpiry 0) = false ∧ WellFormed (.voiceEntryExpiry 63) = false := by
  decide

theorem test_wellFormed_peer : WellFormed (.peerAgeOut 0) = false ∧ WellFormed (.peerAgeOut 63) = false := by decide

/-- A record that is complete is not discarded (R162). -/
theorem test_wellFormed_discard : WellFormed (.transactionDiscard [0x06#8, 0x12#8]) = false := by decide

theorem test_wellFormed_unknown : WellFormed (.unknownCommand 0x0D#8) = false := by decide

theorem test_wellFormed_scope :
    WellFormed (.eraseAllScopeRefused 0x01#8) = false ∧ WellFormed (.eraseAllScopeRefused 0x02#8) = false := by decide

/-! ## Formats (R169, R170) -/

/-- The CRC's usual check value over the digits 1 to 9: generator 0x1021, preset 0xFFFF, not inverted (R169). -/
theorem test_crc_check_value :
    crcBytes 0xFFFF#16 [0x31#8, 0x32#8, 0x33#8, 0x34#8, 0x35#8, 0x36#8, 0x37#8, 0x38#8, 0x39#8] = 0x29B1#16 := by
  decide +kernel

/-- A CUE of station 5: class 2, source 5, kind 9, length 2. -/
theorem test_header_cue : frameHeader .cue 5 = 0b10_000101_1001_0010#16 := by decide

/-- A LOAD of station 62: class 3, source 62, kind 10, length 4. -/
theorem test_header_load : frameHeader .load 62 = 0b11_111110_1010_0100#16 := by decide

theorem test_payload_load : (FrameBody.load 0x1234 5 true).payload = [0x12#8, 0x34#8, 0x05#8, 0x01#8] := by decide

/-- A cause above 1 is BUSY and an outcome above 2 FAILED; a priority is read by its low 3 bits. -/
theorem test_readBody_unlisted :
    readBody .blockHeld ⟨0, [5#8, 9#8], 0, 0⟩ = .blockHeld 5 .busy ∧
      readBody .blockRelease ⟨0, [5#8, 9#8], 0, 0⟩ = .blockRelease 5 .failed ∧
      readBody .talkIntent ⟨0, [0x0F#8, 1#8, 2#8], 0, 0⟩ = .talkIntent 7 258 := by decide

theorem test_record_set_address :
    decodeRecord rest [0x03#8, 0x01#8, 0x23#8, 0x45#8] = some (.setAddress 0x012345#24) := by decide

/-- The bytes behind a record are not read (R170). -/
theorem test_record_trailing : decodeRecord rest [0x06#8, 0x12#8, 0x34#8] = some (.load 0x12#8) := by decide

/-- A RESUME of station 5: start bit 0, class 0, source 000101, kind 0010, length 0000, the CRC, seven 1s. -/
theorem test_frame_bits :
    (encodeFrame 5 .resume).bits.take 17 =
        [false, false, false, false, false, false, true, false, true, false, false, false, true, false, false, false,
          false] ∧
      (encodeFrame 5 .resume).bits.drop 33 = List.replicate 7 true ∧
      frameOfBits (encodeFrame 5 (.cue 0 9)).bits = some (encodeFrame 5 (.cue 0 9)) := by decide +kernel

/-- With an answer of one byte to a record of one byte, the line reads 0xFF, the answer, 0xFF (R170). -/
theorem test_port_output :
    let p : Port := { Port.atRestart with answer := [0x5A#8] }
    p.outputByte 1 0 = 0xFF#8 ∧ p.outputByte 1 1 = 0x5A#8 ∧ p.outputByte 1 2 = 0xFF#8 := by decide +kernel

theorem test_record_incomplete : decodeRecord rest [0x03#8, 0x01#8] = none := by decide

/-- The table of spec/opcode_table.json gives no row bits. -/
theorem test_decodeTableWord_none : decodeTableWord 8 0x01 = none := rfl

/-! ## Worked values of the manual -/

/-- R26: code 0 is level 0, code 1023 level 1000, code 512 level 500. -/
theorem test_levels : levelOf 0#10 = 0 ∧ levelOf 1023#10 = 1000 ∧ levelOf 512#10 = 500 := by decide

/-- R44: a rising fade rounds its level down and a falling fade rounds it up. -/
theorem test_fade_rounds_toward_start : fadeLevel 0 1000 1 3 = 333 ∧ fadeLevel 1000 0 1 3 = 667 := by decide

/-- R80: the output value lies between -2048 and 2032. -/
theorem test_sample_output_ends : sampleOutput 0x80#8 1000 = -2048 ∧ sampleOutput 0x7F#8 1000 = 2032 := by decide

/-- R62: a demand above the base share in a group above its capacity gets its proportion, rounded down. -/
theorem test_allowance_proportional : allowance .active 300000 300000 400000 100000 = 200000 := by decide

/-- R48: 700 of 1000 W allowed scales every output by 7/10. -/
theorem test_output_scaled : outputLevel 999 1000000 700000 = 699 := by decide

/-- Section 3.9: the fade from 0 to 700 over 300 ticks, and the one from 466 to 200. -/
theorem test_worked_fade :
    fadeLevel 0 700 3 300 = 7 ∧ fadeLevel 0 700 200 300 = 466 ∧ fadeLevel 466 200 1 300 = 466 ∧
      fadeLevel 466 200 2 300 = 465 ∧ fadeLevel 466 200 299 300 = 201 := by decide

/-- Section 3.10: outputs under the lamp allowance. -/
theorem test_worked_scaling :
    outputLevel 800 180000 150000 = 666 ∧ outputLevel 400 180000 150000 = 333 ∧ outputLevel 800 330000 200000 = 484 ∧
      outputLevel 700 330000 200000 = 424 ∧ outputLevel 1000 330000 200000 = 606 := by decide

/-- Section 5.12: two samples at gain 720 and ducked at 180. -/
theorem test_worked_samples :
    sampleOutput 100#8 720 = 1152 ∧ sampleOutput 100#8 180 = 288 ∧ sampleOutput 0xB3#8 720 = -887 ∧
      sampleOutput 0xB3#8 180 = -221 := by decide

/-- Section 2.5: a bouncing BUTTON of threshold 400 and hysteresis 100, its debounced state after each sample. -/
theorem test_worked_bounce :
    let c : InputSettings := ⟨.button, 100, 400, 300⟩
    let after (levels : List Nat) : Input := levels.foldl (fun r l => r.sample c l) ⟨false, false, 0, none, none⟩
    (after [950, 120, 620, 90]).debounced = false ∧ (after [950, 120, 620, 90, 80]).debounced = true ∧
      (after [950, 120, 620, 90, 80, 85, 460, 930]).debounced = true ∧
      (after [950, 120, 620, 90, 80, 85, 460, 930, 410]).debounced = false := by decide

/-- Section 4.9: allowances of a demand of 400 and 550 W among peers of 3200 and 2300 W, and the lamp left of one. -/
theorem test_worked_allowances :
    allowance .active 400000 3200000 1000000 100000 = 111111 ∧ allowance .active 550000 3200000 1000000 100000 = 146666 ∧
      allowance .active 550000 2300000 1000000 100000 = 192982 ∧ allowance .silent 550000 2300000 1000000 100000 = 100000 ∧
      outputLevel 1000 400000 42982 = 107 := by decide

/-! ## Hypotheses met, and what the command then does -/

theorem ready_of {s : State} (h : s.phase = .running ∧ s.works = [] ∧ s.announceCheck = false) : Ready s :=
  ⟨h.1, h.2.1, h.2.2⟩

theorem hears_of {s : State} {k : FrameKind} {f : Frame}
    (h : (s.phase = .running ∧ s.works = [] ∧ s.announceCheck = false) ∧ s.line.state ≠ .off ∧ f.valid k = true ∧
      f.source ≠ s.settings.station) : Hears s k f :=
  ⟨ready_of h.1, h.2.1, h.2.2.1, h.2.2.2⟩

theorem free_of {s : State} (h : s.phase = .maintenance ∧ s.port.operation = none) : PortFree s := ⟨h.1, h.2⟩

theorem activates_of {s : State} {i : Fin 8} {code : BitVec 10}
    (h : s.settings.inputs[i].kind ≠ .unused ∧ s.inputs.inputs[i].debounced = false ∧
      (s.inputs.inputs[i].sample s.settings.inputs[i] (levelOf code)).debounced = true) : Activates s i code :=
  ⟨h.1, h.2.1, h.2.2⟩

theorem releases_of {s : State} {i : Fin 8} {code : BitVec 10}
    (h : s.settings.inputs[i].kind ≠ .unused ∧ s.inputs.inputs[i].debounced = true ∧
      (s.inputs.inputs[i].sample s.settings.inputs[i] (levelOf code)).debounced = false) : Releases s i code :=
  ⟨h.1, h.2.1, h.2.2⟩

theorem bay_of {s : State}
    (h : s.inputs.occupancy ≤ 255 ∧ (s.inputs.bay = .occupied ↔ 0 < s.inputs.occupancy) ∧
      (s.inShow = true → (s.inputs.quietTimer.isSome = true ↔ s.inputs.bay = .occupied)) ∧
      (s.inShow = true → (s.inputs.idleTimer.isSome = true ↔ s.inputs.bay = .empty))) : BayAgrees s :=
  ⟨h.1, h.2.1, h.2.2.1, h.2.2.2⟩

theorem segment_of {s : State} (h : s.track.running = false ∧ s.share.admissions = []) : SegmentSafe s :=
  ⟨by simp [h.1], by simp [h.2], by simp [h.2]⟩

/-- The bytes of a valid configuration sector: marker, protect byte 0xFF, station 5, capacity 400 W, idle time 10 s, quiet
time 60 s, stall times of 5 ticks, and every other setting 0. -/
def configByte (a : Nat) : Byte :=
  match a with
  | 0x000 => 0x45 | 0x001 => 0x49 | 0x002 => 0x34 | 0x003 => 0x12 | 0x004 => 0xFF | 0x005 => 5
  | 0x008 => 0x01 | 0x009 => 0x90 | 0x019 => 10 | 0x01B => 60
  | 0x0B3 => 5 | 0x0D3 => 5 | 0x0F3 => 5 | 0x113 => 5
  | _ => 0

def config : List Host.Cell :=
  ((List.range 0x160).filter fun a => a != 4).map fun a => (a, configByte a)

theorem nothing_due {s : State} (h : s.dueEvents = []) (c : Instr) : ¬IsDue s c := fun hc => by
  have := (mem_dueEvents s c).2 hc
  simp [h] at this

/-- Idle: the idle timer's expiry is due, and nothing else; time passing with nothing due; an operation's end due. -/
theorem test_hyp_idle :
    (demo.pending = [] ∧ IsDue demo .idleTimerExpiry ∧ demo.dueEvents = [.idleTimerExpiry]) ∧
      (∀ c, ¬IsDue { demo with inputs.idleTimer := none } c) ∧
      IsDue { port with port.operation := some (.commit 0x100, 3), clockMs := 3 } .commitComplete :=
  ⟨⟨rfl, ⟨10000, rfl, by decide⟩, by decide +kernel⟩,
    nothing_due (by decide +kernel), ⟨0x100, 3, rfl, Nat.le_refl 3⟩⟩

/-- A configuration that fails its FORMAT check, one that fails a FIELD check, and a valid one. -/
theorem test_hyp_restart :
    (configCheck [] = some .format ∧
      configCheck [(0, 0x45#8), (1, 0x49#8), (2, 0x34#8), (3, 0x12#8)] = some .field ∧ configCheck config = none) ∧
      port.phase ≠ .powerOff ∧ port.port.operation = none := by decide +kernel

/-- A RESET_RELEASE with a valid configuration starts the show in JOINING with the idle timer at 1000 ticks. -/
theorem test_reset_release_starts_show :
    nextIs (exec (.resetRelease false rest) { State.reset with memory := config }) (fun t =>
      t.phase == .running && t.line == { Line.off with state := .joining, joiningTimer := some 50 } &&
        t.inputs.idleTimer == some 1000 && t.faults.records.getLast? == some ⟨.restart, 1, 0, 0, 0⟩) = true := by
  decide +kernel

/-- A POWER_ON with MAINT_SEL high and an erased memory gives the state after reset. -/
theorem test_power_on_gives_reset :
    nextIs (exec (.powerOn false rest) { State.reset with phase := .powerOff }) (fun t =>
      t.phase == .unconfigured && t.faults == State.reset.faults && t.memory == [] && t.port == Port.atRestart) = true := by
  decide +kernel

theorem test_hyp_supply :
    ({ port with phase := .powerOff } : State).phase = .powerOff ∧ port.port.operation = none := ⟨rfl, rfl⟩

theorem test_hyp_portFree : PortFree port := free_of ⟨rfl, rfl⟩

/-- READ at the first address outside the configuration sector, protection active: 0x00 (R167). -/
theorem test_read_protected :
    nextIs (exec .read { port with memory := [(4, 0#8), (0x1000, 0x5A#8)], port.pointer := 0x1000 })
      (fun t => t.port.answer == [0x00#8]) = true := by decide +kernel

/-- READ_NEXT at 0x7FFFFF wraps (R164). -/
theorem test_read_next_wraps :
    nextIs (exec .readNext { port with port.pointer := 0x7FFFFF }) (fun t =>
      t.port.answer == [0xFF#8] && t.port.pointer == 0) = true := by decide +kernel

/-- Row 0x100, latch byte 0x3C at position 2 over the byte 0x0F: the AND is 0x0C (R165). -/
def committing : State :=
  { port with
    memory := [(0x102, 0x0F#8)], clockMs := 3, port.operation := some (.commit 0x100, 3)
    port.latch := (Vector.replicate 256 0xFF#8).set 2 0x3C#8 }

theorem test_hyp_cut :
    Memory.wf committing.memory = true ∧ committing.port.operation = some (.commit 0x100, 3) ∧
      committing.phase ≠ .powerOff ∧
      ({ committing with port.operation := some (.eraseContent, 3) } : State).port.operation =
        some (.eraseContent, 3) := by decide +kernel

theorem test_hyp_commit :
    PortFree port ∧ Memory.read port.memory 4 = 0xFF#8 ∧ Memory.read [(4, 0#8)] 4 ≠ 0xFF#8 ∧
      Memory.wf committing.memory = true ∧ committing.phase = .maintenance ∧
      committing.port.operation = some (.commit 0x100, 3) ∧ 3 ≤ committing.clockMs :=
  ⟨free_of ⟨rfl, rfl⟩, by decide +kernel⟩

theorem test_commit_ands :
    nextIs (exec .commitComplete committing) (fun t =>
      Memory.read t.memory 0x102 == 0x0C#8 && t.port.commitDone && t.port.operation.isNone) = true := by
  decide +kernel

theorem test_hyp_erase :
    ({ port with port.operation := some (.eraseSector 0x1000, 50), clockMs := 50 } : State).port.operation =
        some (.eraseSector 0x1000, 50) ∧
      (∀ row, Operation.eraseSector 0x1000 ≠ .commit row) ∧ (∀ row, Operation.eraseEverything ≠ .commit row) :=
  ⟨rfl, fun _ => nofun, fun _ => nofun⟩

/-- The last byte of a sector is erased, the first of the next is not (R166). -/
theorem test_erase_sector_bounds :
    nextIs (exec .eraseComplete
      { port with
        memory := [(0x1FFF, 1#8), (0x2000, 2#8)], clockMs := 50, port.operation := some (.eraseSector 0x1000, 50) })
      (fun t => t.memory == [(0x2000, 2#8)] && t.port.eraseDone) = true := by decide +kernel

/-- The answer to FAULTS over one record (R170). -/
theorem test_faults_answer :
    nextIs (exec .faults { port with faults.records := [⟨.stall, 2, 0x01020304, 0x05060708, 9⟩] }) (fun t =>
      t.port.answer == [1, 7, 2, 1, 2, 3, 4, 5, 6, 7, 8, 9]) = true := by decide +kernel

theorem test_hyp_busy :
    answerLength? .identify = some 5 ∧ answerLength? (.exit rest) = some 0 ∧
      ({ port with port.operation := some (.eraseContent, 9) } : State).port.operation ≠ none ∧
      demo.phase ≠ .maintenance := by decide +kernel

theorem test_status_while_busy :
    nextIs (exec .status { port with port.operation := some (.eraseContent, 9), port.late := true }) (fun t =>
      t.port.answer == [0x09#8] && !t.port.late) = true := by decide +kernel

/-- A protected memory, an ERASE_ALL of scope EVERYTHING at its end, and a command that answers a next state. -/
def erasing : State :=
  { port with memory := [(4, 0#8)], port.operation := some (.eraseEverything, 0) }

theorem test_hyp_protected :
    (∃ t, Machine.step { erasing with pending := [.eraseComplete] } = .next t) ∧
      Memory.read erasing.memory 4 ≠ 0xFF#8 ∧
      (∀ op e, erasing.port.operation = some (op, e) → op = .eraseEverything) ∧
      (∃ t, Machine.step demo = .next t) ∧ demo.phase = .running ∧ demo.port.operation = none :=
  ⟨⟨_, rfl⟩, by decide +kernel, fun op e h => (by cases h; rfl), ⟨_, rfl⟩, rfl, rfl⟩

/-- A list of eight records: the ninth of another kind drops the oldest (R153). -/
def eight : State :=
  { demo with faults.records := (List.range 8).map fun n => ⟨.stall, BitVec.ofNat 8 n, 0, 0, 254⟩ }

theorem test_hyp_faultList :
    eight.phase = .running ∧ eight.faults.records.length ≤ 8 ∧
      (eight.recordFault .limit 7).faults.records.length = 8 ∧
      (eight.recordFault .stall 7).faults.records.getLast? = some ⟨.stall, 7, 0, 10000, 255⟩ ∧
      (eight.recordFault .stall 6).faults.records.head? = some ⟨.stall, 1, 0, 0, 254⟩ ∧
      demo.faults.records.length ≤ 8 := by decide +kernel

/-! ### Inputs -/

/-- A BUTTON's first low sample only counts; a BEAM is released by its first high one. -/
theorem test_hyp_sample :
    Ready demo ∧ demo.settings.inputs[(0 : Fin 8)].kind ≠ .unused ∧
      nextIs (exec (.inputSample 0 1023#10) demo) (fun t => t.inputs == demo.inputs) = true ∧
      nextIs (exec (.inputSample 0 0#10) demo) (fun t =>
        t.inputs.inputs[(0 : Fin 8)] == ⟨true, false, 1, none, none⟩) = true ∧
      nextIs (exec (.inputSample 1 1023#10) (demo.setInput 1 ⟨true, true, 0, none, none⟩)) (fun t =>
        t.inputs.inputs[(1 : Fin 8)] == ⟨false, false, 0, none, none⟩) = true :=
  ⟨ready_of (by decide +kernel), by decide +kernel⟩

/-- The threshold itself does not activate; the release level, threshold + hysteresis, does not release (R27). -/
theorem test_compare_at_levels :
    InputSettings.compare ⟨.beam, 50, 500, 0⟩ false 500 = false ∧
      InputSettings.compare ⟨.beam, 50, 500, 0⟩ false 499 = true ∧
      InputSettings.compare ⟨.beam, 50, 500, 0⟩ true 550 = true ∧
      InputSettings.compare ⟨.beam, 50, 500, 0⟩ true 551 = false := by decide

/-- The second low sample of the BUTTON, with hold time 100, and the first of the BEAM, with hold time 0. -/
theorem test_hyp_press :
    Ready (demo.setInput 0 ⟨true, false, 1, none, none⟩) ∧
      Activates (demo.setInput 0 ⟨true, false, 1, none, none⟩) 0 0#10 ∧ Activates demo 1 0#10 ∧
      demo.considerations (.input 0) = [] ∧
      nextIs (exec (.inputSample 0 0#10) (demo.setInput 0 ⟨true, false, 1, none, none⟩)) (fun t =>
        t.inputs.inputs[(0 : Fin 8)].latch == some 10000) = true ∧
      nextIs (exec (.inputSample 1 0#10) demo) (fun t =>
        t.inputs.inputs[(1 : Fin 8)] == ⟨true, true, 0, none, some 10000⟩) = true :=
  ⟨ready_of (by decide +kernel), activates_of (by decide +kernel), activates_of (by decide +kernel),
    by decide +kernel⟩

/-- Scene 0, bound to input 1 under HOLD, is active in slot 0. -/
def activeHold : State :=
  (withScene demo { scene (.input 1) [⟨5, 7, [9, 4]⟩] with policy := .hold }).setSlot 0 (running (.delaying 10005))

theorem test_hyp_pressBound :
    Activates activeHold 1 0#10 ∧ activeHold.considerations (.input 1) = [.consider (.input 1) 0] ∧
      ((activeHold.engine.slots[(0 : Fin 4)].run).map fun i => i.scene) = some 0 ∧ activeHold.halt = none ∧
      nextIs (exec (.inputSample 0 0#10)
          { activeHold.setInput 0 ⟨true, false, 1, none, none⟩ with
            engine.scenes := activeHold.engine.scenes.set 0
              (some { scene (.input 0) [⟨5, 7, [9, 4]⟩] with policy := .hold }) }) (fun t =>
        t.inputs.inputs[(0 : Fin 8)].latch == some 10000 && t.engine == { activeHold.engine with
          scenes := t.engine.scenes }) = true ∧
      nextIs (exec (.inputSample 1 0#10) { activeHold with halt := some .line }) (fun t =>
        t.inputs.inputs[(1 : Fin 8)] == ⟨true, true, 0, none, some 10000⟩) = true :=
  ⟨activates_of (by decide +kernel), by decide +kernel⟩

theorem starts_of {s : State} {n : Fin 64} {sc : Scene} {first : StepRecord} {k : Fin 4}
    (h : (s.scene? n = some sc ∧ sc.steps[0]? = some first ∧ 0 < first.delay) ∧ s.halt = none ∧
      (sc.needsPresence = true → 0 < s.inputs.occupancy) ∧ s.engine.cooldowns[n] = none ∧
      (List.finRange 4).all (fun j => (s.engine.slots[j].run).all fun i => i.scene != n) = true ∧
      s.engine.slots[k].run = none ∧ ∀ j : Fin 4, j < k → s.engine.slots[j].run ≠ none) : Starts s n sc first k where
  present := h.1.1
  step := h.1.2.1
  delay := h.1.2.2
  running := h.2.1
  visitors := h.2.2.1
  cooled := h.2.2.2.1
  inactive j run hr := by
    have h1 : (s.engine.slots[j].run).all (fun i => i.scene != n) = true :=
      List.all_eq_true.1 h.2.2.2.2.1 j (List.mem_finRange j)
    rw [hr] at h1
    simpa using h1
  free := h.2.2.2.2.2.1
  lowest := h.2.2.2.2.2.2

/-- R31: a scene bound to a BUTTON starts at its activation and consumes the latch, with hold time 100; R5: in slot 1
when slot 0 is active. -/
theorem test_hyp_pressStarts :
    let sc := scene (.input 0) [⟨5, 7, [9, 4]⟩]
    let s := withScene ((demo.setInput 0 ⟨true, false, 1, none, none⟩).setSlot 0
      ⟨some ⟨9, 3, 9000, 0, .delaying 20000, .none, 0⟩, 7⟩) sc
    Activates s 0 0#10 ∧ s.considerations (.input 0) = [.consider (.input 0) 0] ∧
      Starts s 0 sc ⟨5, 7, [9, 4]⟩ 1 ∧
      nextIs (exec (.inputSample 0 0#10) s) (fun t =>
        t.inputs.inputs[(0 : Fin 8)] == ⟨true, true, 0, none, some 10000⟩ &&
          t.engine == (startedIn s 0 sc ⟨5, 7, [9, 4]⟩ 1).engine &&
          t.engine.slots[(1 : Fin 4)] == ⟨some ⟨0, 3, 10000, 0, .delaying 10005, .none, 0⟩, 1⟩ &&
          t.engine.cooldowns[(0 : Fin 64)] == some 10200) = true :=
  ⟨activates_of (by decide +kernel), by decide +kernel, starts_of (by decide +kernel), by decide +kernel⟩

/-- STOP and RESUME activations: while RUNNING, HALTED, HALTED with STOP held, and with the track FAULTED (R132, R150,
R151). -/
theorem test_hyp_stopResume :
    let faulted : State := { demo with track.state := .faulted, track.peer := some 6 }
    let halted : State := { demo with halt := some .line }
    (Activates demo 4 0#10 ∧ Activates demo 5 0#10 ∧ Activates halted 5 0#10) ∧ SegmentSafe demo ∧
      (halted.stopLevel = false ∧ halted.inHandover = false ∧
        (halted.setInput 4 ⟨true, true, 0, none, none⟩).stopLevel = true) ∧
      nextIs (exec (.inputSample 4 0#10) demo) (fun t =>
        t.halt == some .stopInput && t.line.queue.head? == some ⟨.halt .stopInput, 10000, false, 0⟩ &&
          t.faults.records.getLast? == some ⟨.halted, 0, 10000, 10000, 0⟩) = true ∧
      nextIs (exec (.inputSample 5 0#10) halted) (fun t =>
        t.halt.isNone && t.line.queue.head? == some ⟨.resume, 10000, false, 0⟩) = true ∧
      nextIs (exec (.inputSample 5 0#10) (halted.setInput 4 ⟨true, true, 0, none, none⟩)) (fun t =>
        t.halt.isSome && t.line.queue == [⟨.halt .stopInput, 10000, false, 0⟩]) = true ∧
      nextIs (exec (.inputSample 5 0#10) faulted) (fun t =>
        t.track == { faulted.track with state := .empty, peer := none }) = true ∧
      nextIs (exec (.inputSample 5 0#10) (faulted.setInput 6 ⟨true, true, 0, none, none⟩)) (fun t =>
        t.track.state == .holding) = true :=
  ⟨⟨activates_of (by decide +kernel), activates_of (by decide +kernel), activates_of (by decide +kernel)⟩,
    segment_of (by decide +kernel), by decide +kernel⟩

/-- A handover with its beam passed on one side, the ARRIVE or DEPART beam still broken. -/
def passing (state : TrackState) (i : Fin 8) (run : Nat) : State :=
  { demo.setInput i ⟨true, true, 0, none, none⟩ with
    settings.settleRun := run, track.state := state, track.peer := some 6, track.running := true
    track.arriveSeen := true, track.departSeen := true, track.grantTimer := .expiring 12000 }

/-- Beams of the track broken and clear, by the block's state (R125, R127, R129, R130). -/
theorem test_hyp_beams :
    (Activates demo 6 0#10 ∧ Activates demo 7 0#10 ∧ Releases (passing .sending 7 50) 7 1023#10 ∧
        Releases (passing .receiving 6 50) 6 1023#10) ∧
      nextIs (exec (.inputSample 7 0#10) demo) (fun t => t.track.state == .holding) = true ∧
      nextIs (exec (.inputSample 7 0#10) { demo with track.state := .sending }) (fun t =>
        t.track.state == .sending && t.track.departSeen) = true ∧
      nextIs (exec (.inputSample 6 0#10) { demo with track.state := .receiving }) (fun t =>
        t.track.state == .receiving && t.track.arriveSeen) = true ∧
      nextIs (exec (.inputSample 7 0#10) { demo with track.state := .receiving, track.running := true }) (fun t =>
        t.track == endedTrack demo.track .holding) = true ∧
      nextIs (exec (.inputSample 7 1023#10) (passing .sending 7 50)) (fun t =>
        t.track == endedTrack demo.track .empty && t.line.queue.head? == some ⟨.blockRelease 6 .done, 10000, false, 0⟩) =
          true ∧
      nextIs (exec (.inputSample 6 1023#10) (passing .receiving 6 50)) (fun t =>
        t.track.settle == .expiring 10050 && t.track.grantTimer == .stopped && t.track.running) = true ∧
      nextIs (exec (.inputSample 6 1023#10) { passing .receiving 6 50 with halt := some .line }) (fun t =>
        t.track.settle == .frozen 50) = true ∧
      nextIs (exec (.inputSample 6 1023#10) (passing .receiving 6 0)) (fun t =>
        t.track == endedTrack demo.track .holding) = true :=
  ⟨⟨activates_of (by decide +kernel), activates_of (by decide +kernel), releases_of (by decide +kernel),
    releases_of (by decide +kernel)⟩, by decide +kernel⟩

def visitors (n : Nat) : State :=
  { demo with
    inputs.occupancy := n, inputs.bay := if n = 0 then .empty else .occupied
    inputs.quietTimer := if n = 0 then none else some 12000, inputs.idleTimer := if n = 0 then some 10500 else none }

/-- The counts at both ends, and at 1 and 2 (R35). -/
theorem test_hyp_occupancy :
    (BayAgrees (visitors 0) ∧ BayAgrees (visitors 1) ∧ BayAgrees (visitors 2) ∧ BayAgrees (visitors 255)) ∧
      Activates (visitors 0) 2 0#10 ∧ Activates (visitors 1) 3 0#10 ∧
      nextIs (exec (.inputSample 2 0#10) (visitors 0)) (fun t =>
        t.inputs.occupancy == 1 && t.inputs.quietTimer == some 16000 && t.inputs.idleTimer.isNone) = true ∧
      nextIs (exec (.inputSample 2 0#10) (visitors 255)) (fun t => t.inputs.occupancy == 255) = true ∧
      nextIs (exec (.inputSample 3 0#10) (visitors 1)) (fun t =>
        t.inputs.bay == .empty && t.inputs.idleTimer == some 11000) = true ∧
      nextIs (exec (.inputSample 3 0#10) (visitors 0)) (fun t => t.inputs.occupancy == 0) = true :=
  ⟨⟨bay_of (by decide +kernel), bay_of (by decide +kernel), bay_of (by decide +kernel), bay_of (by decide +kernel)⟩,
    activates_of (by decide +kernel), activates_of (by decide +kernel), by decide +kernel⟩

/-- R35: ENTER starts a scene that needs a visitor, EMPTY one that needs none. -/
theorem test_hyp_bayStarts :
    let enter : Scene := { scene .enter [⟨5, 7, [9, 4]⟩] with needsPresence := true }
    let empty := scene .empty [⟨5, 7, [9, 4]⟩]
    let s := withScene (visitors 0) enter
    let s1 := withScene (visitors 1) empty
    (BayAgrees s ∧ BayAgrees s1 ∧ Activates s 2 0#10 ∧ Activates s1 3 0#10) ∧
      (s.considerations .enter = [.consider .enter 0] ∧ s1.considerations .empty = [.consider .empty 0]) ∧
      Starts { activated s 2 0#10 with
        inputs.occupancy := 1, inputs.bay := .occupied, inputs.quietTimer := some 16000, inputs.idleTimer := none } 0 enter
        ⟨5, 7, [9, 4]⟩ 0 ∧
      Starts { activated s1 3 0#10 with
        inputs.occupancy := 0, inputs.bay := .empty, inputs.quietTimer := none, inputs.idleTimer := some 11000 } 0 empty
        ⟨5, 7, [9, 4]⟩ 0 ∧
      nextIs (exec (.inputSample 2 0#10) s) (fun t =>
        ((t.engine.slots[(0 : Fin 4)].run).map fun i => i.scene) == some 0 && t.inputs.occupancy == 1) = true ∧
      nextIs (exec (.inputSample 3 0#10) s1) (fun t =>
        ((t.engine.slots[(0 : Fin 4)].run).map fun i => i.scene) == some 0 && t.inputs.bay == .empty) = true :=
  ⟨⟨bay_of (by decide +kernel), bay_of (by decide +kernel), activates_of (by decide +kernel),
      activates_of (by decide +kernel)⟩, by decide +kernel, starts_of (by decide +kernel), starts_of (by decide +kernel),
    by decide +kernel⟩

theorem test_hyp_inputTimers :
    (demo.setInput 0 ⟨false, false, 0, some 9900, some 9900⟩).inputs.inputs[(0 : Fin 8)].latch = some 9900 ∧
      10000 = 9900 + demo.settings.inputs[(0 : Fin 8)].hold ∧ 10000 ≤ demo.now ∧
      ({ visitors 1 with inputs.quietTimer := some 10000 } : State).considerations .empty = [] ∧
      ({ demo with halt := some .line } : State).halted = true ∧ demo.inputs.idleTimer = some 10000 ∧
      nextIs (exec (.latchExpiry 0) (demo.setInput 0 ⟨false, false, 0, some 9900, some 9900⟩)) (fun t =>
        t.inputs.inputs[(0 : Fin 8)] == ⟨false, false, 0, none, some 9900⟩) = true ∧
      nextIs (exec .quietTimerExpiry { visitors 1 with inputs.quietTimer := some 10000 }) (fun t =>
        t.inputs.occupancy == 0 && t.inputs.idleTimer == some 11000) = true := by decide +kernel

theorem test_hyp_idleDims :
    demo.inputs.idleTimer = some 10000 ∧ demo.halt = none ∧ demo.share.admissions = [] ∧
      nextIs (exec .idleTimerExpiry demo) (fun t =>
        t.lamps[(0 : Fin 12)].target == 200 && t.lamps[(0 : Fin 12)].steps == 300 && !t.lamps[(1 : Fin 12)].fading &&
          t.share.lampDemand == 20000) = true := by decide +kernel

/-! ### Scenes -/

def wait5 : StepRecord := ⟨5, 7, [9, 4]⟩
def step (action : Byte) (args : List Byte) : StepRecord := ⟨0, action, args⟩

/-- A HOLD scene on input 0 whose cooldown ends with the latch present. -/
def held : State :=
  (withScene (demo.setInput 0 ⟨false, false, 0, some 9950, some 9950⟩) (scene (.input 0) [wait5])).setCooldown 0
    (some 10000)

theorem test_hyp_cooldown :
    (demo.setCooldown 0 (some 10000)).engine.cooldowns[(0 : Fin 64)] = some 10000 ∧
      (demo.setCooldown 0 (some 10000)).scene? 0 = none ∧
      held.scene? 0 = some (scene (.input 0) [wait5]) ∧
      (held.inputs.inputs[(0 : Fin 8)].latch).isSome = true ∧ held.engine.slots[(0 : Fin 4)].run = none ∧
      nextIs (exec (.cooldownEnd 0) held) (fun t =>
        t.engine.slots[(0 : Fin 4)] == ⟨some ⟨0, 3, 10000, 0, .delaying 10005, .none, 0⟩, 1⟩ &&
          t.engine.cooldowns[(0 : Fin 64)] == some 10200 && t.inputs.inputs[(0 : Fin 8)].latch.isNone) = true := by
  decide +kernel

def cue7 : Frame := fromStation 7 (.cue 0 9)

theorem test_hyp_cue :
    Hears demo .cue cue7 ∧ demo.considerations (.cue 7 9) = [] ∧ (cue7.byte 0 = 0 ∧ cue7.source = 7) ∧
      (withScene demo (scene (.cue 7) [wait5])).considerations (.cue 7 9) = [.consider (.cue 7 9) 0] ∧
      nextIs (exec (.cueReceived cue7) (withScene demo (scene (.cue 7) [wait5]))) (fun t =>
        t.engine.slots[(0 : Fin 4)].run == some ⟨0, 3, 10000, 0, .delaying 10005, .none, 0⟩) = true ∧
      nextIs (exec (.cueReceived (fromStation 7 (.cue 4 9))) (withScene demo (scene (.cue 7) [wait5]))) (fun t =>
        t.engine.slots == demo.engine.slots) = true :=
  ⟨hears_of (by decide +kernel), by decide +kernel⟩

/-- Scenes 0 and 1 wait for the CUE of station 7; every slot that `runs` lists is active with scene 9 at a priority. -/
def cued (policy : RepeatPolicy) (runs : List (Nat × Nat)) : State :=
  let s := withScene demo { scene (.cue 7) [wait5] with policy := policy }
  (List.finRange 4).foldl (fun t k =>
    match runs[k.val]? with
    | some (n, p) => t.setSlot k ⟨some ⟨Fin.ofNat 64 n, p, 9000, 0, .delaying 20000, .none, 0⟩, 7⟩
    | none => t) s

/-- R5: four slots busy at priority 3 or more refuse a scene of priority 3; of two at priority 2 the lower slot gives way;
under RESTART the active scene starts again in its slot; two scenes bound start in the lowest FREE slots. -/
theorem test_hyp_triggers :
    (Hears (cued .hold []) .cue cue7 ∧ (cued .hold []).considerations (.cue 7 9) = [.consider (.cue 7 9) 0]) ∧
      nextIs (exec (.cueReceived cue7) (cued .hold [(9, 3), (10, 4), (11, 3), (12, 3)])) (fun t =>
        t.engine.slots == (cued .hold [(9, 3), (10, 4), (11, 3), (12, 3)]).engine.slots) = true ∧
      nextIs (exec (.cueReceived cue7) (cued .hold [(9, 3), (10, 2), (11, 2), (12, 3)])) (fun t =>
        t.engine.slots[(1 : Fin 4)] == ⟨some ⟨0, 3, 10000, 0, .delaying 10005, .none, 0⟩, 8⟩ &&
          t.engine.slots[(2 : Fin 4)].mark == 7) = true ∧
      nextIs (exec (.cueReceived cue7) (cued .restart [(9, 3), (0, 3)])) (fun t =>
        t.engine.slots[(1 : Fin 4)] == ⟨some ⟨0, 3, 10000, 0, .delaying 10005, .none, 0⟩, 8⟩) = true ∧
      nextIs (exec (.cueReceived cue7) (cued .hold [(9, 3), (0, 3)])) (fun t =>
        t.engine.slots == (cued .hold [(9, 3), (0, 3)]).engine.slots) = true ∧
      (let two : State :=
        { cued .hold [(9, 3)] with
          engine.scenes := (cued .hold []).engine.scenes.set 1 (some (scene (.cue 7) [wait5])) }
      two.considerations (.cue 7 9) = [.consider (.cue 7 9) 0, .consider (.cue 7 9) 1] ∧
        nextIs (exec (.cueReceived cue7) two) (fun t =>
          ((t.engine.slots[(1 : Fin 4)].run).map fun i => i.scene) == some 0 &&
            ((t.engine.slots[(2 : Fin 4)].run).map fun i => i.scene) == some 1) = true) :=
  ⟨⟨hears_of (by decide +kernel), by decide +kernel⟩, by decide +kernel⟩

/-- R5, tests 1 to 3: the CUE is refused while HALTED, with no visitor for a scene that needs one, and in the cooldown. -/
theorem test_hyp_refusals :
    let away : State := withScene demo { scene (.cue 7) [wait5] with needsPresence := true }
    (({ cued .hold [] with halt := some .line } : State).considerations (.cue 7 9) = [.consider (.cue 7 9) 0] ∧
        away.considerations (.cue 7 9) = [.consider (.cue 7 9) 0] ∧ away.inputs.occupancy = 0) ∧
      nextIs (exec (.cueReceived cue7) { cued .hold [] with halt := some .line }) (fun t =>
        t.engine == (cued .hold []).engine) = true ∧
      nextIs (exec (.cueReceived cue7) away) (fun t => t.engine == away.engine) = true ∧
      nextIs (exec (.cueReceived cue7) ((cued .hold []).setCooldown 0 (some 10001))) (fun t =>
        t.engine.slots == demo.engine.slots) = true := by decide +kernel

/-- R4: CUE(0) and CUE(7) scenes are bound to a CUE of station 7 with their tag, in ascending scene number. -/
theorem test_hyp_bound :
    let s : State :=
      { demo with
        engine.scenes := (((demo.engine.scenes.set 3 (some (scene (.cue 0) [wait5]))).set 1
          (some (scene (.cue 7) [wait5]))).set 2 (some (scene (.cue 8) [wait5]))).set 4
          (some { scene (.cue 7) [wait5] with cueTag := 8 }) }
    s.considerations (.cue 7 9) = [.consider (.cue 7 9) 1, .consider (.cue 7 9) 3] ∧
      Starts s 1 (scene (.cue 7) [wait5]) wait5 0 :=
  ⟨by decide +kernel, starts_of (by decide +kernel)⟩

/-- Scene 0 runs in slot 0 and has reached its first step. -/
def atStep (action : Byte) (args : List Byte) : State :=
  (withScene demo (scene .none [step action args, wait5])).setSlot 0 (running (.delaying 10000))

theorem test_hyp_stepCue :
    (atStep 7 [9, 4]).engine.slots[(0 : Fin 4)].run = some ⟨0, 3, 9000, 0, .delaying 10000, .none, 1⟩ ∧
      (atStep 7 [9, 4]).scene? 0 = some (scene .none [step 7 [9, 4], wait5]) ∧
      decodeStep true (step 7 [9, 4]) = some (.cue 9 4) ∧
      nextIs (exec (.stepDeadline 0) (atStep 7 [9, 4])) (fun t =>
        t.line.queue == [⟨.cue 9 4, 10000, false, 0⟩] &&
          t.engine.slots[(0 : Fin 4)] == ⟨some ⟨0, 3, 9000, 1, .delaying 10005, .none, 1⟩, 5⟩) = true := by
  decide +kernel

/-- Scene 0 at its first step, with the steps and the trigger given, in slot 1; a second scene, 1, waits for a CUE of this
station. -/
def atSteps (trigger : Trigger) (steps : List StepRecord) : State :=
  State.setSlot
    { demo with
      engine.scenes := (demo.engine.scenes.set 0 (some (scene trigger steps))).set 1 (some (scene (.cue 5) [wait5])) } 1
    (running (.delaying 10000))

/-- R8, R9: two steps with no delay between them; the end of the scene; R6: its kept latch starts it again, in slot 0. -/
theorem test_hyp_stepRun :
    let two := atSteps .none [step 7 [9, 4], step 7 [0x0A, 5], wait5]
    let last := atSteps (.input 0) [step 7 [9, 4]]
    let kept := last.setInput 0 ⟨false, false, 0, some 9990, some 9990⟩
    nextIs (exec (.stepDeadline 1) two) (fun t =>
        t.line.queue == [⟨.cue 9 4, 10000, false, 0⟩, ⟨.cue 10 5, 10000, false, 0⟩] &&
          t.engine.slots[(1 : Fin 4)] == ⟨some ⟨0, 3, 9000, 2, .delaying 10005, .none, 1⟩, 5⟩) = true ∧
      nextIs (exec (.stepDeadline 1) ((last.setChannelOwner 0 (some ⟨1, 3⟩)).setDriveOwner 2 (some ⟨0, 3⟩))) (fun t =>
        t.engine.slots[(1 : Fin 4)] == ⟨none, 5⟩ && t.engine.channelOwners[(0 : Fin 12)] == none &&
          t.engine.driveOwners[(2 : Fin 4)] == some ⟨0, 3⟩) = true ∧
      NoRetake last (scene (.input 0) [step 7 [9, 4]]) ∧
      nextIs (exec (.stepDeadline 1) { kept with
          engine.scenes := kept.engine.scenes.set 0 (some (scene (.input 0) [⟨5, 7, [9, 4]⟩])) }) (fun t =>
        t.engine.slots[(1 : Fin 4)] == ⟨none, 5⟩ &&
          t.engine.slots[(0 : Fin 4)] == ⟨some ⟨0, 3, 10000, 0, .delaying 10005, .none, 0⟩, 1⟩ &&
          t.inputs.inputs[(0 : Fin 8)].latch.isNone) = true :=
  ⟨by decide +kernel, by decide +kernel, fun i h _ => by cases h; rfl, by decide +kernel⟩

/-- R20: a CUE for every station is queued, and starts the scene bound to it once the slot has moved on. -/
theorem test_hyp_loopback :
    let s := atSteps .none [step 7 [0, 9], wait5]
    let moved : State := State.setSlot { s with line.queue := [⟨.cue 0 9, 10000, false, 0⟩] } 1
      ⟨some ⟨0, 3, 9000, 1, .delaying 10005, .none, 1⟩, 5⟩
    s.considerations (.cue 5 9) = [.consider (.cue 5 9) 1] ∧ Starts moved 1 (scene (.cue 5) [wait5]) wait5 0 ∧
      nextIs (exec (.stepDeadline 1) s) (fun t =>
        t.line.queue == [⟨.cue 0 9, 10000, false, 0⟩] &&
          t.engine == (startedIn moved 1 (scene (.cue 5) [wait5]) wait5 0).engine) = true :=
  ⟨by decide +kernel, starts_of (by decide +kernel), by decide +kernel⟩

/-- A FADE of channels 0 and 1 to 1500 over 2 ticks: channel 1 is unused, and the target is clamped. -/
def fadeArgs : List Byte := [0x00, 0x03, 0x05, 0xDC, 0x00, 0x02]

theorem test_hyp_stepFade :
    decodeStep true (step 1 fadeArgs) = some (.fade 3#12 1500 2) ∧
      (∀ c : Fin 12, ∀ k : Fin 4, (atStep 1 fadeArgs).engine.slots[k].awaits (.fade c) = false) ∧
      (atStep 1 fadeArgs).share.admissions = [] ∧
      nextIs (exec (.stepDeadline 0) (atStep 1 fadeArgs)) (fun t =>
        t.lamps[(0 : Fin 12)].target == 1000 && t.lamps[(0 : Fin 12)].steps == 2 &&
          t.engine.channelOwners[(0 : Fin 12)] == some ⟨0, 3⟩ && t.engine.channelOwners[(1 : Fin 12)] == none) = true ∧
      nextIs (exec (.stepDeadline 0)
          (((atStep 1 fadeArgs).setChannelOwner 0 (some ⟨1, 4⟩)).setLamp 0 { Lamp.dark with fading := true })) (fun t =>
        t.lamps[(0 : Fin 12)].steps == 0 && t.engine.channelOwners[(0 : Fin 12)] == some ⟨1, 4⟩) = true := by
  decide +kernel

/-- The instance of `running` at its first step. -/
def first : Running := ⟨0, 3, 9000, 0, .delaying 10000, .none, 1⟩

theorem issues_of {s : State} {r : StepRecord} {a : Action}
    (h : (s.phase = .running ∧ s.works = [] ∧ s.announceCheck = false) ∧ s.engine.slots[(0 : Fin 4)].run = some first ∧
      10000 ≤ s.now ∧ s.scene? 0 = some (scene .none [r, wait5]) ∧ decodeStep s.settings.trackMode r = some a) :
    Issues s 0 first a wait5 :=
  ⟨ready_of h.1, h.2.1, ⟨_, rfl, h.2.2.1⟩, ⟨_, r, h.2.2.2.1, rfl, h.2.2.2.2, rfl⟩, by decide⟩

theorem test_issues_cue_fade :
    Issues (atStep 7 [9, 4]) 0 first (.cue 9 4) wait5 ∧
      Issues (atStep 1 fadeArgs) 0 first (.fade 3#12 1500 2) wait5 :=
  ⟨issues_of (r := step 7 [9, 4]) (by decide +kernel), issues_of (r := step 1 fadeArgs) (by decide +kernel)⟩

/-- A SAY of clip 1, priority 4, patience 30 s; with a clip, and a player that is SETTLING. -/
def saying : State := atStep 2 [1, 4, 30]
def sayingPresent : State :=
  { saying with
    player.clips := saying.player.clips.set 1 (some ⟨0xA000, 1600, 1000⟩), player.state := .settling }

/-- R14: the handle of a SAY of an absent clip is DROPPED; of a present one QUEUED, with 3000 ticks of patience. -/
theorem test_hyp_say :
    Issues saying 0 first (.say 1 4 30) wait5 ∧ Issues sayingPresent 0 first (.say 1 4 30) wait5 ∧
      (saying.clip? 1 = none ∧ saying.abandons 0 = false ∧ sayingPresent.clip? 1 ≠ none ∧
        sayingPresent.player.state ≠ .idle ∧ sayingPresent.player.queue = []) ∧
      nextIs (exec (.stepDeadline 0) saying) (fun t =>
        t.engine.slots[(0 : Fin 4)].run == some ⟨0, 3, 9000, 1, .delaying 10005, .dropped, 2⟩) = true ∧
      nextIs (exec (.stepDeadline 0) sayingPresent) (fun t =>
        t.player.queue == [⟨0, 5, 1, 4, 10000, 13000, 2, 0⟩] &&
          t.engine.slots[(0 : Fin 4)].run == some ⟨0, 3, 9000, 1, .delaying 10005, .queued, 2⟩) = true :=
  ⟨issues_of (r := step 2 [1, 4, 30]) (by decide +kernel), issues_of (r := step 2 [1, 4, 30]) (by decide +kernel),
    by decide +kernel⟩

/-- A SAY at the same priority keeps the place of the entry it replaces among equals: before slot 1's, which entered
later (R85, R86). -/
theorem test_say_replaced_in_place :
    nextIs (exec (.stepDeadline 0)
        { sayingPresent with player.queue := [⟨0, 5, 1, 4, 9000, 9900, 1, 2⟩, ⟨1, 0, 1, 4, 9000, 9900, 1, 3⟩] })
      (fun t =>
        t.player.queue == [⟨0, 5, 1, 4, 9000, 13000, 2, 2⟩, ⟨1, 0, 1, 4, 9000, 9900, 1, 3⟩]) = true := by
  decide +kernel

/-- Slot 1's queue of seven requests and a last one of priority 3 or 4, for slot 0's SAY of priority 4. -/
def crowdedQueue (last : Nat) : State :=
  { sayingPresent with
    player.queue := (List.range 7).map (fun n => ⟨1, 0, BitVec.ofNat 8 (10 + n), 5, 9000, 12000, 1, n⟩) ++
      [⟨2, 9, 20, last, 9500, 12000, 1, 7⟩]
    player.entered := 8
    engine.slots := sayingPresent.engine.slots.set 2
      ⟨some ⟨2, 1, 9000, 0, .delaying 20000, .queued, 1⟩, 9⟩ }

/-- R87: into a full queue, in place of the last entry of lower priority, whose handle is DROPPED; refused by one of its own
priority. R85: behind the entries of higher priority. -/
theorem test_hyp_sayFull :
    (NobodyAwaits (crowdedQueue 3) .narration ∧ Issues (crowdedQueue 3) 0 first (.say 1 4 30) wait5) ∧
      nextIs (exec (.stepDeadline 0) (crowdedQueue 3)) (fun t =>
        t.player.queue.length == 8 && t.player.queue.getLast? == some ⟨0, 5, 1, 4, 10000, 13000, 2, 8⟩ &&
          ((t.engine.slots[(2 : Fin 4)].run).map fun i => i.handle) == some .dropped) = true ∧
      nextIs (exec (.stepDeadline 0) (crowdedQueue 4)) (fun t =>
        t.player.queue == (crowdedQueue 4).player.queue &&
          ((t.engine.slots[(0 : Fin 4)].run).map fun i => i.handle) == some .dropped) = true :=
  ⟨⟨by unfold NobodyAwaits; decide +kernel, issues_of (r := step 2 [1, 4, 30]) (by decide +kernel)⟩, by decide +kernel⟩

/-- An AWAIT of channel 0 with a limit of 9 ticks, STEADY and FADING (R19). -/
theorem test_hyp_await :
    let s := atStep 6 [2, 0, 0, 9]
    let f := s.setLamp 0 { Lamp.dark with fading := true, steps := 5 }
    Issues s 0 first (.await (.fade 0) 9) wait5 ∧ Issues f 0 first (.await (.fade 0) 9) wait5 ∧
      (s.lamps[(0 : Fin 12)].fading = false ∧ f.lamps[(0 : Fin 12)].fading = true ∧
        f.engine.channelOwners[(0 : Fin 12)] = none) ∧
      nextIs (exec (.stepDeadline 0) s) (fun t =>
        t.engine.slots[(0 : Fin 4)].run == some ⟨0, 3, 9000, 1, .delaying 10005, .none, 1⟩) = true ∧
      nextIs (exec (.stepDeadline 0) f) (fun t =>
        t.engine.slots[(0 : Fin 4)].run == some ⟨0, 3, 9000, 0, .awaiting (.fade 0) (some 10009), .none, 1⟩) = true :=
  ⟨issues_of (r := step 6 [2, 0, 0, 9]) (by decide +kernel), issues_of (r := step 6 [2, 0, 0, 9]) (by decide +kernel),
    by decide +kernel⟩

/-- R19: an AWAIT of a narration whose handle is DROPPED fails, of a MOVING drive that slot 1 owns is PREEMPTED, of a
FAULTED drive fails, of an ASKING block waits and of one HOLDING is done. -/
theorem test_hyp_awaitAtIssue :
    let dropped := (atStep 6 [0, 0, 0, 0]).setSlot 0 ⟨some { first with handle := .dropped }, 5⟩
    let moved (state : DriveState) : State :=
      ((atStep 6 [1, 0, 0, 0]).setDrive 0 { Drive.atRestart with state := state }).setDriveOwner 0 (some ⟨1, 1⟩)
    let block (state : TrackState) : State := { atStep 6 [3, 0, 0, 0] with track.state := state }
    let goesOn (o : Host.Outcome State Fault Refusal) : Bool := nextIs o fun t =>
      ((t.engine.slots[(0 : Fin 4)].run).map fun i => (i.stepIndex, i.wait)) == some (1, .delaying 10005)
    (Issues (moved .moving) 0 first (.await (.drive 0) 0) wait5 ∧
        Issues (block .askingAsked) 0 first (.await .track 0) wait5) ∧
      (FailsAtOnce dropped .dropped .narration ∧ PassesAtOnce (moved .moving) 0 .none (.drive 0) ∧
        FailsAtOnce (moved .faulted) .none (.drive 0) ∧ PassesAtOnce (block .holding) 0 .none .track ∧
        ¬PassesAtOnce (block .askingAsked) 0 .none .track ∧ ¬FailsAtOnce (block .askingAsked) .none .track) ∧
      goesOn (exec (.stepDeadline 0) dropped) = true ∧ goesOn (exec (.stepDeadline 0) (moved .moving)) = true ∧
      goesOn (exec (.stepDeadline 0) (moved .faulted)) = true ∧
      goesOn (exec (.stepDeadline 0) (block .holding)) = true ∧
      nextIs (exec (.stepDeadline 0) (block .askingAsked)) (fun t =>
        t.engine.slots[(0 : Fin 4)].run == some ⟨0, 3, 9000, 0, .awaiting .track none, .none, 1⟩) = true :=
  ⟨⟨issues_of (r := step 6 [1, 0, 0, 0]) (by decide +kernel), issues_of (r := step 6 [3, 0, 0, 0]) (by decide +kernel)⟩,
    ⟨.inl rfl, .inr (.inr ⟨.inr (.inr rfl), _, rfl, by decide⟩), rfl, .inr rfl, by unfold PassesAtOnce; decide +kernel,
      by unfold FailsAtOnce; decide +kernel⟩, by decide +kernel⟩

/-- A MOVE of drive 0 to 1000 at class 2, the drive homed and at rest at 100, with 40 W allowed or none. -/
def movingOff (base : Nat) : State :=
  { (atStep 3 [0, 0x03, 0xE8, 2]).setDrive 0 { Drive.atRestart with state := .idle, homed := true, position := 100 } with
    settings.baseShare := base, settings.capacity := base }

/-- R16: it runs at once when its 40 W fit within the allowance; it is refused on an unhomed drive, a FAULTED one and the
segment. -/
theorem test_hyp_move :
    Issues (movingOff 100) 0 first (.move 0 1000 2) wait5 ∧
      ((movingOff 100).drives[(0 : Fin 4)].state = .idle ∧ (movingOff 100).drives[(0 : Fin 4)].homed = true ∧
        (movingOff 100).engine.driveOwners[(0 : Fin 4)] = none ∧ (movingOff 100).share.admissions = [] ∧
        (movingOff 100).abandons 0 = false ∧ (movingOff 100).settings.trackMode = true) ∧
      nextIs (exec (.stepDeadline 0) (movingOff 100)) (fun t =>
        t.drives[(0 : Fin 4)].state == .moving && t.drives[(0 : Fin 4)].up && t.drives[(0 : Fin 4)].target == 1000 &&
          t.share.startedDemand == 40000) = true ∧
      nextIs (exec (.stepDeadline 0) (movingOff 0)) (fun t =>
        t.drives[(0 : Fin 4)].state == .pendingPower && t.share.admissions == [⟨.driveRun, 0, 40000, 10000⟩]) = true ∧
      nextIs (exec (.stepDeadline 0) (atStep 3 [0, 0x03, 0xE8, 2])) (fun t =>
        t.faults.records.getLast? == some ⟨.unhomed, 0, 10000, 10000, 0⟩) = true ∧
      nextIs (exec (.stepDeadline 0) (atStep 3 [3, 0x03, 0xE8, 2])) (fun t =>
        t.faults.records == demo.faults.records && t.drives == demo.drives) = true :=
  ⟨issues_of (r := step 3 [0, 0x03, 0xE8, 2]) (by decide +kernel), by decide +kernel⟩

/-- Slot 1 runs scene 1 and AWAITS a subject. -/
def awaiting (s : State) (subject : Subject) : State :=
  State.setSlot { s with engine.scenes := s.engine.scenes.set 1 (some (scene .none [wait5, wait5])) } 1
    ⟨some ⟨1, 2, 9000, 0, .awaiting subject none, .none, 0⟩, 6⟩

theorem awaits_of {s : State} {subject : Subject} (h : s.engine.slots[(1 : Fin 4)].run =
      some ⟨1, 2, 9000, 0, .awaiting subject none, .none, 0⟩ ∧
    s.scene? 1 = some (scene .none [wait5, wait5])) :
    AwaitsNext s 1 ⟨1, 2, 9000, 0, .awaiting subject none, .none, 0⟩ subject wait5 :=
  ⟨h.1, ⟨_, rfl⟩, ⟨_, h.2, rfl⟩, by decide⟩

/-- The demo at a MOVE of drive 0 to 1000, or at a HOME of drive 0, with 40 W allowed or none, drive 0 as given. -/
def atDrive (home : Bool) (base : Nat) (r : Drive) : State :=
  { (if home then atStep 4 [0] else atStep 3 [0, 0x03, 0xE8, 2]).setDrive 0 r with
    settings.baseShare := base, settings.capacity := base }

def underWay (state : DriveState) : Drive :=
  { Drive.atRestart with
    state := state, homed := decide (state ≠ .homing), position := 100, up := true, target := 2000
    pending := if state = .pendingPower then some .move else none }

/-- The waiting MOVE of slot 1 taken over, slot 1 AWAITING it: it does not own the drive, slot 2 does (R12, R19). -/
def takenOver (base : Nat) : State :=
  { awaiting ((atDrive false base (underWay .pendingPower)).setDriveOwner 0 (some ⟨2, 1⟩)) (.drive 0) with
    share.admissions := [⟨.driveRun, 0, 40000, 9900⟩] }

/-- MOVE and HOME steps for a busy drive: left to a slot of higher priority; a new target on the way; a takeover of a
waiting MOVE; a HOME of a MOVING drive (R11, R12, R106, R110). -/
theorem test_hyp_busyDrives :
    (Issues (atDrive false 100 (underWay .moving)) 0 first (.move 0 1000 2) wait5 ∧
        Issues (atDrive true 100 (underWay .moving)) 0 first (.home 0) wait5 ∧
        Issues (takenOver 100) 0 first (.move 0 1000 2) wait5 ∧
        AwaitsNext (takenOver 100) 1 ⟨1, 2, 9000, 0, .awaiting (.drive 0) none, .none, 0⟩ (.drive 0) wait5) ∧
      (∀ m : Fin 4, (takenOver 100).engine.slots[m].awaits (.drive 0) = true → m = 1) ∧
      nextIs (exec (.stepDeadline 0)
          ((atDrive false 100 (underWay .moving)).setDriveOwner 0 (some ⟨1, 4⟩))) (fun t =>
        t.drives[(0 : Fin 4)] == underWay .moving && t.engine.driveOwners[(0 : Fin 4)] == some ⟨1, 4⟩) = true ∧
      nextIs (exec (.stepDeadline 0) (atDrive false 100 (underWay .moving))) (fun t =>
        t.drives[(0 : Fin 4)] ==
          { underWay .moving with target := 1000, speedClass := 2, classInForce := 2, requester := some ⟨0, 5⟩ }) = true ∧
      nextIs (exec (.stepDeadline 0) (takenOver 0)) (fun t =>
        t.share.admissions == [⟨.driveRun, 0, 40000, 10000⟩] && t.drives[(0 : Fin 4)].target == 1000 &&
          ((t.engine.slots[(1 : Fin 4)].run).map fun i => i.stepIndex) == some 1 &&
          t.engine.driveOwners[(0 : Fin 4)] == some ⟨0, 3⟩) = true ∧
      nextIs (exec (.stepDeadline 0) (takenOver 100)) (fun t =>
        t.share.admissions.isEmpty && t.drives[(0 : Fin 4)].state == .moving) = true ∧
      nextIs (exec (.stepDeadline 0) (atDrive true 0 (underWay .moving))) (fun t =>
        t.drives[(0 : Fin 4)].state == .pendingPower && !t.drives[(0 : Fin 4)].homed) = true ∧
      nextIs (exec (.stepDeadline 0) (atDrive true 100 (underWay .moving))) (fun t =>
        t.drives[(0 : Fin 4)].state == .homing) = true ∧
      nextIs (exec (.stepDeadline 0) (atDrive true 100 (underWay .homing))) (fun t =>
        t.drives[(0 : Fin 4)] == { underWay .homing with requester := some ⟨0, 5⟩ }) = true :=
  ⟨⟨issues_of (r := step 3 [0, 0x03, 0xE8, 2]) (by decide +kernel), issues_of (r := step 4 [0]) (by decide +kernel),
    issues_of (r := step 3 [0, 0x03, 0xE8, 2]) (by decide +kernel), awaits_of (by decide +kernel)⟩, by decide +kernel⟩

/-- R11, R12, R19: a FADE takes over the channel that slot 1 AWAITS and slot 2 owns, which PREEMPTS the AWAIT; taken
from no owner, the channel leaves slot 1 waiting. -/
theorem test_hyp_fadePreempts :
    let s := (awaiting (atStep 1 fadeArgs) (.fade 0)).setLamp 0 { Lamp.dark with fading := true, steps := 9 }
    let owned := s.setChannelOwner 0 (some ⟨2, 1⟩)
    (Issues owned 0 first (.fade 3#12 1500 2) wait5 ∧ Issues s 0 first (.fade 3#12 1500 2) wait5 ∧
        AwaitsNext owned 1 ⟨1, 2, 9000, 0, .awaiting (.fade 0) none, .none, 0⟩ (.fade 0) wait5 ∧
        AwaitsNext s 1 ⟨1, 2, 9000, 0, .awaiting (.fade 0) none, .none, 0⟩ (.fade 0) wait5) ∧
      (OtherOwns owned.engine.channelOwners[(0 : Fin 12)] 0 ∧ ¬OtherOwns s.engine.channelOwners[(0 : Fin 12)] 0) ∧
      nextIs (exec (.stepDeadline 0) owned) (fun t =>
        t.engine.slots[(1 : Fin 4)] == ⟨some ⟨1, 2, 9000, 1, .delaying 10005, .none, 0⟩, 6⟩ &&
          t.engine.channelOwners[(0 : Fin 12)] == some ⟨0, 3⟩) = true ∧
      nextIs (exec (.stepDeadline 0) s) (fun t =>
        t.engine.slots[(1 : Fin 4)] == s.engine.slots[(1 : Fin 4)] &&
          t.engine.channelOwners[(0 : Fin 12)] == some ⟨0, 3⟩) = true :=
  ⟨⟨issues_of (r := step 1 fadeArgs) (by decide +kernel), issues_of (r := step 1 fadeArgs) (by decide +kernel),
      awaits_of (by decide +kernel), awaits_of (by decide +kernel)⟩,
    ⟨⟨_, rfl, by decide⟩, fun ⟨_, h, _⟩ => by cases h⟩, by decide +kernel⟩

/-- R17: a HOME of drive 0, its home switch open. -/
theorem test_hyp_home :
    let s := { atStep 4 [0] with settings.baseShare := 100 }
    Issues s 0 first (.home 0) wait5 ∧
      (s.drives[(0 : Fin 4)].state = .idle ∧ s.drives[(0 : Fin 4)].homeClosed = false ∧ s.share.admissions = []) ∧
      nextIs (exec (.stepDeadline 0) s) (fun t =>
        t.drives[(0 : Fin 4)].state == .homing && !t.drives[(0 : Fin 4)].up &&
          t.engine.driveOwners[(0 : Fin 4)] == some ⟨0, 3⟩) = true :=
  ⟨issues_of (r := step 4 [0]) (by decide +kernel), by decide +kernel⟩

/-- R18, R122: a SEND from HOLDING whose 40 W fit asks at once; from EMPTY it is refused. -/
theorem test_hyp_send :
    let s := { atStep 5 [2] with settings.baseShare := 100, track.state := .holding }
    Issues s 0 first (.send 2) wait5 ∧ Issues (atStep 5 [2]) 0 first (.send 2) wait5 ∧
      (s.settings.trackMode = true ∧ s.settings.downstream = 6 ∧ s.track.state = .holding ∧ s.line.state = .active ∧
        s.share.admissions = [] ∧ s.line.queue = [] ∧ (atStep 5 [2]).track.state = .empty ∧
        (atStep 5 [2]).abandons 0 = false) ∧
      nextIs (exec (.stepDeadline 0) s) (fun t =>
        t.track.state == .askingAsked && t.track.giveUpTimer == some 16000 &&
          t.engine.trackRequester == some ⟨0, 5⟩ &&
          (t.line.queue.head?.map fun x => x.body) == some (.blockAsk 6 2)) = true ∧
      nextIs (exec (.stepDeadline 0) (atStep 5 [2])) (fun t =>
        t.track == demo.track && t.engine.trackRequester.isNone &&
          t.engine.slots[(0 : Fin 4)].run == some ⟨0, 3, 9000, 1, .delaying 10005, .none, 1⟩) = true :=
  ⟨issues_of (r := step 5 [2]) (by decide +kernel), issues_of (r := step 5 [2]) (by decide +kernel), by decide +kernel⟩

/-- An action code of no kind under CONTINUE, and an AWAIT at its limit under ABANDON. -/
def abandoning : State :=
  (withScene demo { scene .none [step 6 [0, 0, 0, 9], wait5] with abandon := true }).setSlot 0
    (running (.awaiting .narration (some 10000)))

theorem test_hyp_failed :
    decodeStep true (step 0 []) = none ∧ (abandoning.engine.slots[(0 : Fin 4)].run).isSome = true ∧
      abandoning.engine.trackRequester ≠ some ⟨0, 5⟩ ∧ abandoning.player.state = .idle ∧
      nextIs (exec (.stepDeadline 0) (atStep 0 [])) (fun t =>
        t.faults.records.getLast? == some ⟨.sceneBad, 0, 10000, 10000, 0⟩ &&
          t.engine.slots[(0 : Fin 4)].run == some ⟨0, 3, 9000, 1, .delaying 10005, .none, 1⟩) = true ∧
      nextIs (exec (.awaitTimeout 0) abandoning) (fun t => t.engine.slots[(0 : Fin 4)] == ⟨none, 5⟩) = true := by
  decide +kernel

/-- R23, R123: the slot that ABANDONS its scene is the track requester, and its ask is withdrawn. -/
theorem test_hyp_abandonWithdraws :
    let s : State :=
      { abandoning with
        track.state := .askingAsked, track.peer := some 6, track.retryTimer := some 10050
        track.giveUpTimer := some 12000, engine.trackRequester := some ⟨0, 5⟩
        line.queue := [⟨.blockAsk 6 0, 9000, false, 0⟩] }
    (s.asking = true ∧ NoRetake s { scene .none [step 6 [0, 0, 0, 9], wait5] with abandon := true } ∧
        NothingElseWaits s 3 ∧ s.line.queue.length < 8) ∧
      nextIs (exec (.awaitTimeout 0) s) (fun t =>
        t.engine.slots[(0 : Fin 4)] == ⟨none, 5⟩ && t.engine.trackRequester.isNone && t.track.state == .holding &&
          t.track.peer.isNone && t.line.queue == [⟨.blockRelease 6 .cancel, 10000, false, 0⟩]) = true :=
  ⟨⟨by decide +kernel, (fun _ h _ => by cases h), by unfold NothingElseWaits; decide +kernel, by decide +kernel⟩,
    by decide +kernel⟩

/-! ### Lamps and shares -/

def fading (steps : Nat) : State :=
  demo.setLamp 0 ⟨0, 0, 1000, steps, 0, true, none, 0, 9999, 0⟩

theorem test_hyp_fadeStep :
    Ready (fading 3) ∧ (fading 3).lamps[(0 : Fin 12)].fading = true ∧
      (∀ k : Fin 4, (fading 1).engine.slots[k].awaits (.fade 0) = false) ∧ (fading 1).share.admissions = [] ∧
      nextIs (exec (.fadeStep 0) (fading 3)) (fun t => t.lamps[(0 : Fin 12)].programmed == 333) = true ∧
      nextIs (exec (.fadeStep 0) (fading 1)) (fun t =>
        t.lamps[(0 : Fin 12)].programmed == 1000 && !t.lamps[(0 : Fin 12)].fading &&
          t.share.lampDemand == 100000) = true :=
  ⟨ready_of (by decide +kernel), by decide +kernel⟩

theorem awaitsAlone_of {s : State} {subject : Subject} (h : (s.engine.slots[(1 : Fin 4)].run =
        some ⟨1, 2, 9000, 0, .awaiting subject none, .none, 0⟩ ∧ s.scene? 1 = some (scene .none [wait5, wait5])) ∧
      ∀ m : Fin 4, s.engine.slots[m].awaits subject = true → m = 1) :
    AwaitsAlone s 1 ⟨1, 2, 9000, 0, .awaiting subject none, .none, 0⟩ subject wait5 :=
  ⟨awaits_of h.1, h.2⟩

/-- R19: slot 1 moves on when the fade it AWAITS is done. -/
theorem test_hyp_fadeAwaited :
    AwaitsAlone (awaiting (fading 1) (.fade 0)) 1 ⟨1, 2, 9000, 0, .awaiting (.fade 0) none, .none, 0⟩ (.fade 0) wait5 ∧
      nextIs (exec (.fadeStep 0) (awaiting (fading 1) (.fade 0))) (fun t =>
        t.engine.slots[(1 : Fin 4)] == ⟨some ⟨1, 2, 9000, 1, .delaying 10005, .none, 0⟩, 6⟩) = true :=
  ⟨awaitsAlone_of (by decide +kernel), by decide +kernel⟩

/-- A channel at 600 of its 100 W with 30 W allowed draws its 30 W. -/
def lit : State :=
  { demo.setLamp 0 { Lamp.dark with programmed := 600 } with share.lampDemand := 60000, share.lampAllowance := 30000 }

theorem test_hyp_lampDraw :
    (∀ c : Fin 12, lit.lamps[c].programmed ≤ lit.lamps[c].peak) ∧ lit.share.lampDemand = lit.lampDemand ∧
      lit.refreshOutputs.lamps[(0 : Fin 12)].output = 300 := by decide +kernel

theorem test_hyp_recomputation :
    NothingWaits demo ∧ NothingWaits { demo with halt := some .line, share.admissions := [⟨.driveRun, 0, 40000, 0⟩] } :=
  ⟨.inr rfl, .inl rfl⟩

/-- Drive 0 waits with its 40 W and drive 1, behind it, finds no room. -/
def waiting : State :=
  { (demo.setDrive 0 { Drive.atRestart with state := .pendingPower, pending := some .home }).setDrive 1
      { Drive.atRestart with state := .pendingPower, pending := some .home } with
    share.allowance := 50000
    share.admissions := [⟨.driveRun, 0, 40000, 9500⟩, ⟨.driveRun, 1, 40000, 9600⟩] }

/-- R65: a HOME with its switch closed is running while the drive behind it is tested: of 100 W, the 40 W behind its own
100 W do not fit (C = 1000, B = 0, 1600 W announced by the others, two 100 W drives: A = 111 W). -/
theorem test_home_at_once_in_pass :
    let s : State :=
      { waiting with
        settings.capacity := 1000, settings.baseShare := 0
        settings.drives := Vector.replicate 4 ⟨100, Vector.replicate 4 500, 0, 65535, 100, 512, 4, 50, false⟩
        line.peers := [⟨7, 1600, 9990⟩]
        share.admissions := [⟨.driveRun, 0, 100000, 9500⟩, ⟨.driveRun, 1, 100000, 9600⟩] }
    let t := State.recomputeOnce (s.setDrive 0 { s.drives[(0 : Fin 4)] with homeClosed := true })
    t.share.allowance = 111111 ∧ t.drives[(0 : Fin 4)].state = .homing ∧
      t.share.admissions = [⟨.driveRun, 1, 100000, 9600⟩] := by decide +kernel

theorem test_hyp_admissionPass :
    (∀ e ∈ waiting.share.admissions, e.watts = waiting.driveWatts e.drive ∧ (e.kind = .segmentStart → e.drive = 3)) ∧
      (∀ d : Fin 4, waiting.drives[d].state = .track → d = 3) ∧
      waiting.share.admissions.Pairwise (fun x y => x.drive ≠ y.drive) ∧
      waiting.testAdmissions.startedDemand = 40000 ∧
      waiting.testAdmissions.share.admissions = [⟨.driveRun, 1, 40000, 9600⟩] := by decide +kernel

/-- The refresh at 200 ticks, with no LOAD waiting and with one waiting. -/
def refreshing (q : List TxEntry) : State :=
  { demo with share.lastAnnouncement := some ⟨0, false, 9800⟩, line.queue := q }

theorem test_hyp_announcement :
    (refreshing []).announcementDue = true ∧
      (let changed (last : Nat) : State :=
        { demo with share.ownDemand := 1001, share.lastAnnouncement := some ⟨1, false, last⟩ }
      nextIs (exec .announcementDue (changed 9990)) (fun t =>
          t.line.queue == [⟨.load 2 1 false, 10000, false, 0⟩]) = true ∧
        nextIs (exec .announcementDue (changed 9991)) (fun t => t.line.queue == []) = true) ∧
      (refreshing [⟨.load 7 1 false, 9800, false, 0⟩]).announcementDue = true ∧
      nextIs (exec .announcementDue (refreshing [⟨.talkEnd, 9990, true, 0⟩, ⟨.load 7 1 false, 9800, false, 0⟩])) (fun t =>
        t.line.queue == [⟨.talkEnd, 9990, true, 0⟩, ⟨.load 0 1 false, 10000, false, 0⟩]) = true := by
  decide +kernel

/-- A HOME and a SEND that have waited 500 ticks. -/
def powerless : State :=
  { demo.setDrive 0 { Drive.atRestart with state := .pendingPower, pending := some .home } with
    share.admissions := [⟨.driveRun, 0, 40000, 9500⟩] }

def powerlessSend : State :=
  { demo with
    track.state := .askingPower, track.peer := some 6, share.admissions := [⟨.segmentSend, 3, 40000, 9500⟩] }

theorem test_hyp_admissionTimeout :
    (∀ k : Fin 4, powerless.engine.slots[k].run = none) ∧ powerless.drives[(0 : Fin 4)].state = .pendingPower ∧
      powerlessSend.track.state = .askingPower ∧
      nextIs (exec (.admissionTimeout 0) powerless) (fun t =>
        t.drives[(0 : Fin 4)].state == .unhomed && t.share.admissions.isEmpty &&
          t.faults.records.getLast? == some ⟨.noPower, 0, 10000, 10000, 0⟩) = true ∧
      nextIs (exec (.admissionTimeout 3) powerlessSend) (fun t =>
        t.track.state == .holding && t.track.peer.isNone) = true := by decide +kernel

/-- Slot 0, under CONTINUE or ABANDON, is the track requester. -/
def requested (abandon : Bool) (s : State) : State :=
  { (withScene s { scene .none [wait5, wait5] with abandon := abandon }).setSlot 0 (running (.delaying 12000)) with
    engine.trackRequester := some ⟨0, 5⟩ }

/-- R22: the late failure of a HOME reaches the slot that asked for it and owns the drive; a slot that AWAITS the drive
or the track fails there. -/
theorem test_hyp_lateFailure :
    let drive (abandon : Bool) : State :=
      { (requested abandon (powerless.setDrive 0 { powerless.drives[(0 : Fin 4)] with requester := some ⟨0, 5⟩ })) with
        engine.driveOwners := demo.engine.driveOwners.set 0 (some ⟨0, 3⟩), engine.trackRequester := none }
    (NobodyAwaits (drive true) (.drive 0) ∧ NobodyAwaits (requested true powerlessSend) .track ∧
        AwaitsAlone (awaiting (drive false) (.drive 0)) 1 ⟨1, 2, 9000, 0, .awaiting (.drive 0) none, .none, 0⟩ (.drive 0)
          wait5 ∧
        AwaitsAlone (awaiting powerlessSend .track) 1 ⟨1, 2, 9000, 0, .awaiting .track none, .none, 0⟩ .track wait5) ∧
      nextIs (exec (.admissionTimeout 0) (drive false)) (fun t => t.engine == (drive false).engine) = true ∧
      nextIs (exec (.admissionTimeout 0) (drive true)) (fun t =>
        t.engine.slots[(0 : Fin 4)] == ⟨none, 5⟩ && t.engine.driveOwners[(0 : Fin 4)] == none) = true ∧
      nextIs (exec (.admissionTimeout 3) (requested true powerlessSend)) (fun t =>
        t.engine.slots[(0 : Fin 4)] == ⟨none, 5⟩ && t.engine.trackRequester.isNone) = true ∧
      nextIs (exec (.admissionTimeout 3) (awaiting powerlessSend .track)) (fun t =>
        t.engine.slots[(1 : Fin 4)] == ⟨some ⟨1, 2, 9000, 1, .delaying 10005, .none, 0⟩, 6⟩) = true :=
  ⟨⟨by unfold NobodyAwaits; decide +kernel, by unfold NobodyAwaits; decide +kernel, awaitsAlone_of (by decide +kernel),
    awaitsAlone_of (by decide +kernel)⟩, by decide +kernel⟩

/-! ### Narration and the transmit queue -/

/-- Queue order is by class, and a full queue of class 0 and 1 frames discards a CUE (R138, R139). -/
theorem test_hyp_transmitQueue :
    ((demo.handOver (.cue 0 1)).handOver .talkEnd).line.queue =
        [⟨.talkEnd, 10000, false, 0⟩, ⟨.cue 0 1, 10000, false, 0⟩] ∧
      ({ demo with line.queue := List.replicate 8 ⟨.talkEnd, 9, false, 0⟩ } : State).line.queue.length = 8 ∧
      (∀ x ∈ List.replicate 8 (⟨.talkEnd, 9, false, 0⟩ : TxEntry), x.body.cls ≤ (FrameBody.cue 0 1).cls) ∧
      (State.handOver { demo with line.queue := List.replicate 8 ⟨.talkEnd, 9, false, 0⟩ } (.cue 0 1)).line.queue.length =
        8 ∧
      ((List.replicate 8 (⟨.talkEnd, 9, false, 0⟩ : TxEntry)).Pairwise fun x y => x.body.cls ≤ y.body.cls) := by
  decide +kernel

def intent (claim : Nat) : TxEntry := ⟨.talkIntent 4 1, 9990, false, claim⟩

def load8 (n : Nat) (sent : Bool) : TxEntry := ⟨.load n 1 false, 9000, sent, 0⟩

/-- LOADs replace one another or wait aside; a full queue gives up its LOAD, then its last CUE (R138, R139). -/
theorem test_hyp_displacement :
    (State.handOver { demo with line.queue := [load8 7 true] } (.load 9 1 false)).line.heldLoad =
        some ⟨.load 9 1 false, 10000, false, 0⟩ ∧
      (State.handOver { demo with line.queue := [load8 7 false] } (.load 9 1 false)).line.queue =
        [⟨.load 9 1 false, 10000, false, 0⟩] ∧
      (let s : State := { demo with line.queue := List.replicate 7 ⟨.talkEnd, 9, false, 0⟩ ++ [load8 7 false] }
      (s.handOver .resume).line.queue = ⟨.resume, 10000, false, 0⟩ :: List.replicate 7 ⟨.talkEnd, 9, false, 0⟩ ∧
        (s.handOver .resume).faults.records.getLast? = some ⟨.lineOverrun, 3, 10000, 10000, 0⟩) ∧
      (let s : State :=
        { demo with
          player.state := .settling, player.claim := 3
          line.queue := List.replicate 7 ⟨.resume, 9, false, 0⟩ ++ [intent 3] }
      (s.handOver .resume).line.queue.length = 8 ∧ (s.handOver .resume).player.state = .idle ∧
        (s.handOver .resume).player.bounced = true ∧
        (s.handOver .resume).faults.records.getLast? = some ⟨.lineOverrun, 1, 10000, 10000, 0⟩) := by decide +kernel

def say (patience : Tick) : SayEntry := ⟨0, 5, 1, 4, 9000, patience, 1, 0⟩

/-- Clip 1 of 1600 samples, neighbour 7 TALKING until 10000, and a request that waits. -/
def listening : State :=
  { demo with
    player.clips := demo.player.clips.set 1 (some ⟨0xA000, 1600, 1000⟩), player.voices := [⟨7, true, some 10000⟩]
    player.queue := [say 12000] }

theorem test_hyp_voice :
    (⟨7, true, some 10000⟩ ∈ listening.player.voices ∧ listening.player.queue = [say 12000] ∧
        listening.player.state = .idle ∧ listening.line.state = .active ∧
        (listening.clip? (say 12000).clip).isSome = true) ∧
      nextIs (exec (.voiceEntryExpiry 7) listening) (fun t =>
        t.player.state == .settling && t.line.queue == [⟨.talkIntent 4 1, 10000, false, 1⟩]) = true ∧
      nextIs (exec (.voiceEntryExpiry 7) { listening with player.queue := [] }) (fun t =>
        t.player.voices == [⟨7, false, none⟩] && t.line.queue.isEmpty) = true ∧
      ({ listening with player.queue := [say 10000] } : State).impatient 0 1 = some (say 10000) ∧
      nextIs (exec (.patienceExpiry 0 1) { listening with player.queue := [say 10000] }) (fun t =>
        t.player.queue.isEmpty) = true := by decide +kernel

/-- A claim whose settle window ends now. -/
def settling (voice : Option Tick) : State :=
  { listening with
    player.queue := [], player.state := .settling, player.current := some (say 12000), player.intentSent := true
    player.windowEnd := some 10000, player.voices := [⟨7, voice.isSome, voice⟩], memory := [(0xA000, 0x7F#8)] }

theorem test_hyp_window :
    (settling none).player.windowEnd = some 10000 ∧
      nextIs (exec .windowEnd (settling none)) (fun t =>
        t.player.state == .playing && t.player.audioOutput == 2032 && t.player.samplesSent == 1) = true ∧
      nextIs (exec .windowEnd (settling (some 10100))) (fun t =>
        t.player.state == .idle && t.player.queue == [say 12000] &&
          t.line.queue == [⟨.talkEnd, 10000, false, 0⟩]) = true := by decide +kernel

def playing (state : PlayerState) : State :=
  { settling none with
    player.state := state, player.windowEnd := none, player.playStart := some 9990
    player.fadeOutStart := if state = .fadingOut then some 9980 else none }

theorem test_hyp_clipEnd :
    (playing .playing).player.queue = [] ∧ 9990 + (1600 + 159) / 160 ≤ (playing .playing).now ∧
      9980 + 20 ≤ (playing .fadingOut).now ∧
      nextIs (exec .clipEnd (playing .playing)) (fun t =>
        t.player.state == .idle && t.line.queue == [⟨.talkEnd, 10000, false, 0⟩]) = true ∧
      nextIs (exec .fadeOutEnd (playing .fadingOut)) (fun t =>
        t.player.state == .idle && t.player.current.isNone && t.player.fadeOutStart.isNone) = true := by
  decide +kernel

/-- R19: the slot that AWAITS the clip moves on at its end, its handle DONE. -/
theorem test_hyp_clipAwaited :
    let s := State.setSlot
      { playing .playing with
        engine.scenes := demo.engine.scenes.set 1 (some (scene .none [wait5, wait5])) } 0
      ⟨some ⟨1, 2, 9000, 0, .awaiting .narration none, .playing, 1⟩, 5⟩
    AwaitsNext s (say 12000).slot ⟨1, 2, 9000, 0, .awaiting .narration none, .playing, 1⟩ .narration wait5 ∧
      nextIs (exec .clipEnd s) (fun t =>
        t.engine.slots[(0 : Fin 4)] == ⟨some ⟨1, 2, 9000, 1, .delaying 10005, .done, 1⟩, 5⟩) = true :=
  ⟨⟨rfl, ⟨none, rfl⟩, ⟨_, rfl, rfl⟩, by decide⟩, by decide +kernel⟩

/-- R80: the next sample goes out a sixteenth of a ms later, ducked while neighbour 7 talks; R95: none after the last. -/
theorem test_samples_sent :
    let s : State :=
      { playing .playing with
        inputs.idleTimer := none, player.playStart := some 9999, player.samplesSent := 1, sampleClock := 15
        memory := [(0xA000, 0x7F#8), (0xA001, 100#8)] }
    nextIs (Machine.step s) (fun t =>
        t.player.audioOutput == 1600 && t.player.samplesSent == 2 && t.clockMs == 100001 && t.sampleClock == 0) = true ∧
      nextIs (Machine.step { s with player.voices := [⟨7, true, some 10100⟩] }) (fun t => t.player.audioOutput == 400) = true ∧
      nextIs (Machine.step { s with player.samplesSent := 1600, player.audioOutput := 77 }) (fun t =>
        t.player.audioOutput == 77) = true := by decide +kernel

def talk (b : FrameBody) : Frame := fromStation 7 b

theorem test_hyp_talk :
    (Hears demo .talkIntent (talk (.talkIntent 6 30)) ∧ Hears demo .talkBusy (talk (.talkBusy 5 6 30)) ∧
        Hears demo .talkEnd (talk .talkEnd)) ∧
      nextIs (exec (.talkIntentReceived (talk (.talkIntent 6 30))) demo) (fun t =>
        t.player.voices == [⟨7, true, some 10500⟩]) = true ∧
      nextIs (exec (.talkBusyReceived (talk (.talkBusy 4 6 30))) demo) (fun t =>
        t.player.voices == [⟨7, true, none⟩]) = true ∧
      nextIs (exec (.talkEndReceived (talk .talkEnd)) { demo with player.voices := [⟨7, true, some 10500⟩] }) (fun t =>
        t.player.voices == [⟨7, false, none⟩]) = true :=
  ⟨⟨hears_of (by decide +kernel), hears_of (by decide +kernel), hears_of (by decide +kernel)⟩, by decide +kernel⟩

/-- R83, R169: a TALK_BUSY to station 62 makes the sender's entry TALKING; one to destination 0 or 63, which name no
station, changes nothing but the last-heard time. -/
theorem test_hyp_busyDestinations :
    let heard (dest : Nat) : Host.Outcome State Fault Refusal := exec (.talkBusyReceived (talk (.talkBusy dest 6 30))) demo
    (Hears demo .talkBusy (talk (.talkBusy 0 6 30)) ∧ Hears demo .talkBusy (talk (.talkBusy 62 6 30)) ∧
        Hears demo .talkBusy (talk (.talkBusy 63 6 30))) ∧
      nextIs (heard 62) (fun t => t.player.voices == [⟨7, true, none⟩]) = true ∧
      nextIs (heard 0) (fun t => t == demo.hearPeer 7) = true ∧ nextIs (heard 63) (fun t => t == demo.hearPeer 7) = true :=
  ⟨⟨hears_of (by decide +kernel), hears_of (by decide +kernel), hears_of (by decide +kernel)⟩, by decide +kernel⟩

/-- R92: heard while SETTLING, an intent of equal priority and a higher station number ends nothing, nor does one of a
station with no entry. -/
theorem test_hyp_intentYields :
    let unlisted := fromStation 3 (.talkIntent 6 30)
    (Hears (settling none) .talkIntent (talk (.talkIntent 4 30)) ∧ Hears (settling none) .talkIntent unlisted) ∧
      nextIs (exec (.talkIntentReceived (talk (.talkIntent 4 30))) (settling none)) (fun t =>
        t.player == { (settling none).player with voices := [⟨7, true, some 10500⟩] }) = true ∧
      nextIs (exec (.talkIntentReceived unlisted) (settling none)) (fun t =>
        t.player == (settling none).player) = true :=
  ⟨⟨hears_of (by decide +kernel), hears_of (by decide +kernel)⟩, by decide +kernel⟩

theorem test_hyp_intentHeard :
    (Hears (playing .playing) .talkIntent (talk (.talkIntent 6 30)) ∧
        Hears { settling none with player.intentSent := false } .talkIntent (talk (.talkIntent 6 30))) ∧
      nextIs (exec (.talkIntentReceived (talk (.talkIntent 6 30))) (playing .playing)) (fun t =>
        t.line.queue == [⟨.talkBusy 7 4 1, 10000, false, 0⟩]) = true ∧
      nextIs (exec (.talkIntentReceived (talk (.talkIntent 6 30))) { settling none with player.intentSent := false })
        (fun t => t.player.state == .idle && t.player.queue == [say 12000] && t.line.queue.isEmpty) = true :=
  ⟨⟨hears_of (by decide +kernel), hears_of (by decide +kernel)⟩, by decide +kernel⟩

/-- A TALK_BUSY after the intent was sent: a TALK_END follows (R93); a FADING_OUT player answers with what is left (R96). -/
theorem test_hyp_busyHeard :
    Hears (settling none) .talkBusy (talk (.talkBusy 5 6 30)) ∧
      (settling none).intentInTransmission (settling none).player.claim = false ∧
      nextIs (exec (.talkBusyReceived (talk (.talkBusy 5 6 30))) (settling none)) (fun t =>
        t.player.state == .idle && t.player.queue == [say 12000] &&
          t.line.queue == [⟨.talkEnd, 10000, false, 0⟩]) = true ∧
      nextIs (exec (.talkIntentReceived (talk (.talkIntent 6 30)))
          { playing .fadingOut with player.playStart := some 9999, player.fadeOutStart := some 9995 }) (fun t =>
        t.line.queue == [⟨.talkBusy 7 4 1, 10000, false, 0⟩]) = true :=
  ⟨hears_of (by decide +kernel), by decide +kernel⟩

/-! ### Drives -/

def drive0 (r : Drive) : State := demo.setDrive 0 r

def idleAt (p : Nat) : Drive := { Drive.atRestart with state := .idle, homed := true, position := p }

/-- A count of a homed drive moves it by one, and at the edge of its range in one of the two senses it faults. -/
theorem test_hyp_counts :
    (drive0 (idleAt 65535)).drives[(0 : Fin 4)].state ≠ .track ∧ ((false != true) != (false != false)) = true ∧
      (∀ k : Fin 4, (drive0 (idleAt 0)).engine.slots[k].awaits (.drive 0) = false) ∧
      nextIs (exec (.encoderCount 0 true true) (drive0 (idleAt 100))) (fun t =>
        t.drives[(0 : Fin 4)].position == 100) = true ∧
      nextIs (exec (.encoderCount 0 true false)
          (drive0 { Drive.atRestart with state := .homing, travel := 65533, stallTimer := some 10001 })) (fun t =>
        t.drives[(0 : Fin 4)].travel == 65534 && t.drives[(0 : Fin 4)].stallTimer == some 10050) = true ∧
      nextIs (exec (.encoderCount 0 true false) (drive0 { Drive.atRestart with state := .unhomed })) (fun t =>
        t.drives[(0 : Fin 4)].position == 0) = true := by decide +kernel

/-- The edge that a change of line A, leading, runs into, whichever sense it gives: the drive faults LIMIT. -/
def edge : Drive := idleAt (if countsUp false (aLeads false true false) then 65535 else 0)

theorem test_hyp_countEdge :
    (countsUp false (aLeads edge.encA true false) = true → edge.position = 65535) ∧
      (countsUp false (aLeads edge.encA true false) = false → edge.position = 0) ∧ edge.homed = true ∧
      edge.state ≠ .faulted ∧ NothingElseWaits (drive0 edge) 0 := by
  refine ⟨?_, ?_, rfl, nofun, .inr (by decide +kernel)⟩ <;>
    (unfold edge idleAt; show countsUp false (aLeads false true false) = _ → _; intro h; simp [h])

/-- A move at 100 of 100 with tolerance 4 stays inside its band by a count in either sense. -/
theorem test_hyp_countMove :
    ({ idleAt 100 with state := .moving, target := 100 } : Drive).position < 65535 ∧
      0 < ({ idleAt 100 with state := .moving, target := 100 } : Drive).position ∧
      demo.settings.drives[(0 : Fin 4)].tolerance = 4 ∧ 101 ≤ 100 + 4 ∧ 100 ≤ 99 + 4 := by decide +kernel

/-- The sense of a change of line A, leading. -/
def upward : Bool := countsUp false (aLeads false true false)

/-- A braking move at the edge of its band, short of its target or past it, which a count of line A takes outside. -/
def leaving (near : Bool) (reversals : Nat) : Drive :=
  { idleAt (if upward then 104 else 96) with
    state := .moving, target := 100, braking := true, up := upward != near, reversals := reversals }

/-- R109: outside the band on either side of the target, whichever sense the count has. -/
theorem test_hyp_overshoot (near : Bool) (n : Nat) :
    let r := leaving near n
    let position := if upward then r.position + 1 else r.position - 1
    ((upward = true → r.position < 65535) ∧ (upward = false → 0 < r.position)) ∧
      ¬(position ≤ r.target + 4 ∧ r.target ≤ position + 4) ∧
      ((if r.up then position < r.target else r.target < position) ↔ near = true) := by
  unfold leaving
  cases upward <;> cases near <;> simp [idleAt]

/-- R107: the end of the travel, with the output driving and in BRAKE. -/
theorem test_hyp_travelEnd :
    nextIs (exec (.encoderCount 0 true false) (drive0 { Drive.atRestart with state := .homing, travel := 65534 }))
        (fun t => t.drives[(0 : Fin 4)].state == .faulted &&
          t.faults.records.getLast? == some ⟨.limit, 0, 10000, 10000, 0⟩) = true ∧
      nextIs (exec (.encoderCount 0 true false)
          (drive0 { Drive.atRestart with state := .homing, travel := 65535, braking := true })) (fun t =>
        t.drives[(0 : Fin 4)].state == .homing && t.drives[(0 : Fin 4)].travel == 65535) = true := by decide +kernel

def braking (state : DriveState) : Drive :=
  { idleAt 98 with state := state, braking := true, stillTimer := some 10000, target := 100 }

theorem test_hyp_rest :
    ((drive0 (braking .homing)).drives[(0 : Fin 4)].stillTimer = some 10000 ∧
        (drive0 (braking .moving)).share.admissions = []) ∧
      nextIs (exec (.stillTimerExpiry 0) (drive0 (braking .homing))) (fun t =>
        t.drives[(0 : Fin 4)] == { idleAt 0 with target := 100 }) = true ∧
      nextIs (exec (.stillTimerExpiry 0) (drive0 (braking .moving))) (fun t =>
        t.drives[(0 : Fin 4)] == { idleAt 98 with target := 100 }) = true := by decide +kernel

def moving (samples : List Nat) (blanking : Option Nat) : State :=
  drive0 { idleAt 98 with state := .moving, target := 500, stallTimer := some 10000, samples := samples
                          blankingEnd := blanking }

theorem test_hyp_driveFaults :
    (moving [] none).drives[(0 : Fin 4)].braking = false ∧
      nextIs (exec (.stallTimerExpiry 0) (moving [] none)) (fun t =>
        t.drives[(0 : Fin 4)].state == .faulted && !t.drives[(0 : Fin 4)].homed) = true ∧
      nextIs (exec (.currentSample 0 1023#10) (moving [] (some 100001))) (fun t =>
        t.drives[(0 : Fin 4)].samples == []) = true ∧
      nextIs (exec (.currentSample 0 513#10) (moving [600, 513] (some 100000))) (fun t =>
        t.faults.records.getLast? == some ⟨.overcurrent, 0, 10000, 10000, 0⟩) = true ∧
      nextIs (exec (.currentSample 0 512#10) (moving [1, 600, 513] (some 100000))) (fun t =>
        t.drives[(0 : Fin 4)].samples == [600, 513, 512]) = true := by decide +kernel

/-- R19, R22: slot 1 AWAITS a drive: it moves on when the drive comes to rest; at a stall it moves on under CONTINUE and
is FREE under ABANDON. -/
theorem test_hyp_driveAwaited :
    let rests := awaiting (drive0 (braking .moving)) (.drive 0)
    let stalls := awaiting (moving [] none) (.drive 0)
    let abandons : State :=
      { stalls with
        engine.scenes := stalls.engine.scenes.set 1 (some { scene .none [wait5, wait5] with abandon := true })
        engine.channelOwners := stalls.engine.channelOwners.set 0 (some ⟨1, 2⟩) }
    (AwaitsAlone rests 1 ⟨1, 2, 9000, 0, .awaiting (.drive 0) none, .none, 0⟩ (.drive 0) wait5 ∧
        AwaitsAlone stalls 1 ⟨1, 2, 9000, 0, .awaiting (.drive 0) none, .none, 0⟩ (.drive 0) wait5) ∧
      nextIs (exec (.stillTimerExpiry 0) rests) (fun t =>
        t.engine.slots[(1 : Fin 4)] == ⟨some ⟨1, 2, 9000, 1, .delaying 10005, .none, 0⟩, 6⟩) = true ∧
      nextIs (exec (.stallTimerExpiry 0) stalls) (fun t =>
        t.engine.slots[(1 : Fin 4)] == ⟨some ⟨1, 2, 9000, 1, .delaying 10005, .none, 0⟩, 6⟩) = true ∧
      nextIs (exec (.stallTimerExpiry 0) abandons) (fun t =>
        t.engine.slots[(1 : Fin 4)] == ⟨none, 6⟩ && t.engine.channelOwners[(0 : Fin 12)] == none) = true :=
  ⟨⟨awaitsAlone_of (by decide +kernel), awaitsAlone_of (by decide +kernel)⟩, by decide +kernel⟩

/-- R19: slots 0 and 1 AWAIT a drive that nothing owns, and it faults. Slot 0 moves on to a HOME of the same drive in the
same event; slot 1's AWAIT has FAILED already, and the HOME does not make it PREEMPTED: under ABANDON slot 1 is FREE. -/
theorem test_first_event_settles :
    let again : State :=
      State.setSlot
        { moving [] none with
          engine.scenes := (demo.engine.scenes.set 0
            (some (scene .none [wait5, step 4 [0], wait5]))).set 1 (some { scene .none [wait5, wait5] with abandon := true }) }
        0 (running (.awaiting (.drive 0) none))
    let s := again.setSlot 1 ⟨some ⟨1, 2, 9000, 0, .awaiting (.drive 0) none, .none, 0⟩, 6⟩
    nextIs (exec (.stallTimerExpiry 0) s) (fun t =>
      t.engine.slots[(1 : Fin 4)] == ⟨none, 6⟩ && t.engine.driveOwners[(0 : Fin 4)] == some ⟨0, 3⟩ &&
        ((t.engine.slots[(0 : Fin 4)].run).map fun i => i.stepIndex) == some 2) = true := by decide +kernel

/-- R112: a high sample that is not yet the third is kept; R117: an overcurrent of the running segment while sending. -/
theorem test_hyp_segmentOvercurrent :
    let s := ({ demo with
        track.state := .sending, track.peer := some 6, track.running := true } : State).setDrive 3
          { Drive.atRestart with state := .track, samples := [600, 600] }
    s.inHandover = true ∧ s.track.running = true ∧ s.drives[(3 : Fin 4)].state = .track ∧
      nextIs (exec (.currentSample 0 600#10) (moving [600] none)) (fun t =>
        t.drives[(0 : Fin 4)].samples == [600, 600] && t.drives[(0 : Fin 4)].state == .moving) = true ∧
      nextIs (exec (.currentSample 3 600#10) s) (fun t =>
        t.track == endedTrack s.track .faulted && t.drives[(3 : Fin 4)].samples == [] &&
          t.line.queue.head? == some ⟨.blockRelease 6 .failed, 10000, false, 0⟩ &&
          t.faults.records.getLast? == some ⟨.overcurrent, 3, 10000, 10000, 0⟩) = true := by decide +kernel

theorem test_hyp_switches :
    (drive0 (idleAt 3)).drives[(0 : Fin 4)].homeClosed = false ∧
      nextIs (exec (.switchClose 0 .homeSwitch) (drive0 (idleAt 3))) (fun t =>
        t.drives[(0 : Fin 4)] == { idleAt 3 with homeClosed := true }) = true ∧
      nextIs (exec (.switchClose 0 .homeSwitch) (drive0 { idleAt 3 with state := .homing })) (fun t =>
        t.drives[(0 : Fin 4)].braking && t.drives[(0 : Fin 4)].stillTimer == some 10005) = true ∧
      nextIs (exec (.switchClose 0 .endSwitch) (moving [] none)) (fun t =>
        t.drives[(0 : Fin 4)].state == .faulted) = true ∧
      nextIs (exec (.switchOpen 0 .endSwitch) (drive0 { idleAt 3 with endClosed := true })) (fun t =>
        !t.drives[(0 : Fin 4)].endClosed) = true ∧
      nextIs (exec (.haltBrakeEnd 3) (demo.setDrive 3 { Drive.atRestart with state := .track, brakeUntil := some 10000 }))
        (fun t => t.drives[(3 : Fin 4)].brakeUntil.isNone) = true := by decide +kernel

/-! ### The track -/

def asking : State :=
  { demo with
    track.state := .askingAsked, track.peer := some 6, track.retryTimer := some 10000
    track.giveUpTimer := some 10000, line.queue := [⟨.blockAsk 6 0, 9000, false, 0⟩] }

theorem test_hyp_ask :
    (asking.track.state = .askingAsked ∧ asking.track.peer = some 6 ∧ asking.line.queue.length < 8) ∧
      nextIs (exec .retryTimerExpiry asking) (fun t =>
        t.track.retryTimer == some 10100 && t.line.queue == asking.line.queue) = true ∧
      nextIs (exec .giveUpTimerExpiry asking) (fun t =>
        t.track.state == .holding && t.line.queue == [⟨.blockRelease 6 .cancel, 10000, false, 0⟩]) = true := by
  decide +kernel

def handover (state : TrackState) : State :=
  { demo with
    track.state := state, track.peer := some 6, track.running := true, track.grantTimer := .expiring 10000
    track.settle := .expiring 10000 }

/-- R140: an ask of an earlier exchange that is still queued stays; a withdrawal in phase POWER touches no ask (R123). -/
theorem test_older_ask_stays :
    let older : TxEntry := ⟨.blockAsk 6 0, 9000, false, 0⟩
    let s : State :=
      { asking with track.exchange := 1, line.queue := [older, ⟨.blockAsk 6 0, 9500, false, 1⟩] }
    nextIs (exec .giveUpTimerExpiry s) (fun t =>
        t.line.queue == [older, ⟨.blockRelease 6 .cancel, 10000, false, 0⟩]) = true ∧
      (State.withdrawAsk { s with track.state := .askingPower }).line.queue =
        s.line.queue ++ [⟨.blockRelease 6 .cancel, 10000, false, 0⟩] := by decide +kernel

theorem test_hyp_handover :
    (handover .sending).track.grantTimer = .expiring 10000 ∧
      (∀ k : Fin 4, (handover .sending).engine.slots[k].awaits .track = false) ∧
      nextIs (exec .grantTimerExpiry (handover .sending)) (fun t =>
        t.track.state == .faulted && !t.track.running && t.line.queue == [⟨.blockRelease 6 .failed, 10000, false, 0⟩]) =
          true ∧
      nextIs (exec .settleEnd (handover .receiving)) (fun t =>
        t.track.state == .holding && t.drives[(3 : Fin 4)].brakeUntil == some 10005) = true := by decide +kernel

/-- R19, R22: a give-up ABANDONS the scene of the track requester; a slot that AWAITS the track moves on, at the end of
the settle run as DONE, at a give-up and at an expired grant timer as FAILED under CONTINUE. -/
theorem test_hyp_trackAwaited :
    let goesOn (o : Host.Outcome State Fault Refusal) : Bool := nextIs o fun t =>
      t.engine.slots[(1 : Fin 4)] == ⟨some ⟨1, 2, 9000, 1, .delaying 10005, .none, 0⟩, 6⟩
    (AwaitsAlone (awaiting asking .track) 1 ⟨1, 2, 9000, 0, .awaiting .track none, .none, 0⟩ .track wait5 ∧
        AwaitsAlone (awaiting (handover .receiving) .track) 1 ⟨1, 2, 9000, 0, .awaiting .track none, .none, 0⟩ .track
          wait5) ∧
      nextIs (exec .giveUpTimerExpiry (requested true asking)) (fun t =>
        t.engine.slots[(0 : Fin 4)] == ⟨none, 5⟩ && t.track.state == .holding &&
          t.line.queue == [⟨.blockRelease 6 .cancel, 10000, false, 0⟩]) = true ∧
      nextIs (exec .giveUpTimerExpiry (requested false asking)) (fun t =>
        t.engine.slots == (requested false asking).engine.slots && t.engine.trackRequester.isNone) = true ∧
      goesOn (exec .giveUpTimerExpiry (awaiting asking .track)) = true ∧
      goesOn (exec .grantTimerExpiry (awaiting (handover .sending) .track)) = true ∧
      goesOn (exec .settleEnd (awaiting (handover .receiving) .track)) = true :=
  ⟨⟨awaitsAlone_of (by decide +kernel), awaitsAlone_of (by decide +kernel)⟩, by decide +kernel⟩

def ask4 : Frame := fromStation 4 (.blockAsk 5 2)

/-- A station with room for its segment's 40 W, and one whose capacity is spent by its neighbours. -/
def crowded : State :=
  { demo with share.peerSum := 900000, settings.baseShare := 0 }

theorem test_hyp_askAnswered :
    (Hears demo .blockAsk ask4 ∧ Hears crowded .blockAsk ask4) ∧
      (demo.share.startedDemand + demo.driveWatts 3 ≤
          allowance .active (demo.share.ownDemand + demo.driveWatts 3) demo.share.peerSum
            (milli demo.settings.capacity) (milli demo.settings.baseShare)) ∧
      nextIs (exec (.blockAskReceived ask4) demo) (fun t =>
        t.track.state == .receiving && t.track.running && t.track.speedClass == 2 && t.drives[(3 : Fin 4)].up &&
          t.driveOutput 3 == .drive true 500) = true ∧
      nextIs (exec (.blockAskReceived ask4) crowded) (fun t =>
        t.line.queue == [⟨.blockHeld 4 .power, 10000, false, 0⟩]) = true ∧
      nextIs (exec (.blockAskReceived ask4) { demo with halt := some .line }) (fun t =>
        t.line.queue == [⟨.blockHeld 4 .busy, 10000, false, 0⟩]) = true ∧
      nextIs (exec (.blockAskReceived ask4) { demo with track.state := .receiving, track.peer := some 4 }) (fun t =>
        t.line.queue == [⟨.blockGrant 4, 10000, false, 0⟩]) = true :=
  ⟨⟨hears_of (by decide +kernel), hears_of (by decide +kernel)⟩, by decide +kernel⟩

def grant6 : Frame := fromStation 6 (.blockGrant 5)
def held6 : Frame := fromStation 6 (.blockHeld 5 .busy)
def release4 (o : ReleaseOutcome) : Frame := fromStation 4 (.blockRelease 5 o)

/-- An allowance of 40 W is enough for the segment. -/
def allowed : State := { asking with share.allowance := 40000 }

theorem test_hyp_replies :
    (Hears allowed .blockGrant grant6 ∧ Hears asking .blockHeld held6 ∧
        Hears (handover .receiving) .blockRelease (release4 .cancel)) ∧
      allowed.startedDemand + allowed.driveWatts 3 ≤ allowed.share.allowance ∧
      nextIs (exec (.blockGrantReceived grant6) allowed) (fun t =>
        t.track.state == .sending && t.track.running && t.line.queue.isEmpty && t.drives[(3 : Fin 4)].up) = true ∧
      (asking.share.allowance < asking.startedDemand + asking.driveWatts 3 ∧ asking.player.bounced = false ∧
        ¬fitsWith { asking with settings.capacity := 0, settings.baseShare := 0 } asking.motorDemand
          asking.startedDemand (asking.driveWatts 3)) ∧
      nextIs (exec (.blockGrantReceived grant6)
          { asking with settings.capacity := 0, settings.baseShare := 0 }) (fun t =>
        t.track.state == .sending && !t.track.running &&
          t.share.admissions == [⟨.segmentStart, 3, 40000, 10000⟩]) = true ∧
      nextIs (exec (.blockGrantReceived grant6) demo) (fun t =>
        t.line.queue == [⟨.blockRelease 6 .cancel, 10000, false, 0⟩]) = true ∧
      nextIs (exec (.blockHeldReceived held6) asking) (fun t => t.track.retryTimer == some 10100) = true ∧
      nextIs (exec (.blockReleaseReceived (release4 .cancel)) (handover .receiving)) (fun t =>
        t.track.state == .empty && !t.track.running) = true ∧
      nextIs (exec (.blockReleaseReceived (release4 .failed)) (handover .receiving)) (fun t =>
        t.track.state == .faulted) = true :=
  ⟨⟨hears_of (by decide +kernel), hears_of (by decide +kernel), hears_of (by decide +kernel)⟩, by decide +kernel⟩

/-! ### The halt and the line -/

def halt7 : Frame := fromStation 7 (.halt .stopInput)
def resume7 : Frame := fromStation 7 .resume
def halted : State := { demo with halt := some .line }

theorem test_hyp_halt :
    (Hears (moving [] none) .halt halt7 ∧ SegmentSafe (moving [] none) ∧ Hears halted .halt halt7) ∧
      nextIs (exec (.haltReceived halt7) (moving [] none)) (fun t =>
        t.halt == some .line && t.drives[(0 : Fin 4)].state == .idle && t.lamps[(0 : Fin 12)].target == 300 &&
          t.drives[(0 : Fin 4)].brakeUntil == some 10005) = true :=
  ⟨⟨hears_of (by decide +kernel), segment_of (by decide +kernel), hears_of (by decide +kernel)⟩, by decide +kernel⟩

/-- R116: a HOMING drive is UNHOMED and brakes, one that waits to HOME is UNHOMED, and a running segment brakes. -/
theorem test_hyp_haltDrives :
    let homing := drive0 { idleAt 98 with state := .homing, homed := false, requester := some ⟨0, 5⟩ }
    (SegmentSafe homing ∧ SegmentSafe powerless) ∧
      nextIs (exec (.haltReceived halt7) homing) (fun t =>
        t.drives[(0 : Fin 4)] == { idleAt 98 with state := .unhomed, homed := false, brakeUntil := some 10005 }) = true ∧
      nextIs (exec (.haltReceived halt7) powerless) (fun t =>
        t.drives[(0 : Fin 4)] == { Drive.atRestart with state := .unhomed } && t.share.admissions.isEmpty) = true ∧
      nextIs (exec (.haltReceived halt7) (handover .sending)) (fun t =>
        t.drives[(3 : Fin 4)].brakeUntil == some 10005 && !t.track.running) = true :=
  ⟨⟨segment_of (by decide +kernel), ⟨by decide +kernel, by decide +kernel, by decide +kernel⟩⟩, by decide +kernel⟩

/-- R99, R123, R130: what a halt leaves of a narration, an ask and a handover. -/
theorem test_hyp_haltTrack :
    (SegmentSafe asking ∧ asking.asking = true ∧ (handover .receiving).inHandover = true) ∧
      nextIs (exec (.haltReceived halt7) { asking with player := (playing .playing).player }) (fun t =>
        t.line.queue.map (fun x => x.body) == [.talkEnd, .blockRelease 6 .cancel] &&
          t.track.state == .holding && t.player.state == .idle) = true ∧
      nextIs (exec (.haltReceived halt7)
          { handover .receiving with track.grantTimer := .expiring 10700, track.settle := .expiring 10020 }) (fun t =>
        t.track == { (handover .receiving).track with
          running := false, grantTimer := .frozen 700, settle := .frozen 20 }) = true :=
  ⟨⟨segment_of (by decide +kernel), by decide +kernel⟩, by decide +kernel⟩

/-- HALTED while receiving, its segment stopped. -/
def frozen : State :=
  { handover .receiving with halt := some .line, track.running := false, share.allowance := 40000 }

theorem test_hyp_resume :
    (Hears halted .resume resume7 ∧ Hears frozen .resume resume7) ∧ halted.stopLevel = false ∧
      (halted.setInput 4 ⟨true, true, 0, none, none⟩).stopLevel = true ∧ frozen.inHandover = true ∧
      frozen.startedDemand + frozen.driveWatts 3 ≤ frozen.share.allowance ∧
      nextIs (exec (.resumeReceived resume7)
          { frozen with track.grantTimer := .frozen 700, track.settle := .frozen 20 }) (fun t =>
        t.halt.isNone && t.track.running && t.track.grantTimer == .expiring 12000 &&
          t.track.settle == .expiring 10020) = true ∧
      nextIs (exec (.resumeReceived resume7)
          { frozen with share.allowance := 0, settings.capacity := 0, settings.baseShare := 0 }) (fun t =>
        t.halt.isNone && !t.track.running && t.share.admissions == [⟨.segmentStart, 3, 40000, 10000⟩]) = true ∧
      nextIs (exec (.resumeReceived resume7) (halted.setInput 4 ⟨true, true, 0, none, none⟩)) (fun t =>
        t.halt.isSome && t.line.queue == [⟨.halt .stopInput, 10000, false, 0⟩]) = true :=
  ⟨⟨hears_of (by decide +kernel), hears_of (by decide +kernel)⟩, by decide +kernel⟩

theorem test_hyp_haltSafe : Settled halted ∧ SegmentSafe halted ∧ HaltSafe halted ∧ halted.halted = true :=
  ⟨⟨rfl, rfl⟩, segment_of (by decide +kernel),
    ⟨fun _ => by decide +kernel, fun _ => by decide +kernel, fun _ => by decide +kernel, fun _ => by decide +kernel⟩,
    rfl⟩

theorem test_step_of_halted : nextIs (Machine.step halted) (fun t => t.halted) = true := by decide +kernel

def load7 (group : Nat) : Frame := fromStation 7 (.load 120 group false)

def full : State :=
  { demo with line.peers := (List.range 32).map fun n => ⟨10 + n, 0, 9800⟩ }

theorem test_hyp_load :
    (Hears demo .load (load7 1) ∧ Hears full .load (load7 1)) ∧ full.hasPeer 7 = false ∧
      full.line.peers.length = 32 ∧ (∀ p ∈ full.line.peers, full.now ≤ p.lastHeard + 200) ∧
      nextIs (exec (.loadReceived (load7 1)) demo) (fun t =>
        t.line.peers == [⟨7, 120, 10000⟩] && t.share.peerSum == 120000) = true ∧
      nextIs (exec (.loadReceived (load7 2)) { demo with line.peers := [⟨7, 120, 9000⟩] }) (fun t =>
        t.line.peers.isEmpty) = true ∧
      nextIs (exec (.loadReceived (load7 1)) full) (fun t => t.line.peerFull == [7]) = true ∧
      nextIs (exec (.peerAgeOut 7) { demo with line.peers := [⟨7, 120, 9400⟩], share.peerSum := 120000 }) (fun t =>
        t.line.peers.isEmpty && t.share.peerSum == 0) = true :=
  ⟨⟨hears_of (by decide +kernel), hears_of (by decide +kernel)⟩, by decide +kernel⟩

/-- R143: of a full table the entry heard longest ago gives way, the lowest station of equals; R152: the joining-halt
flag. -/
theorem test_hyp_evicted :
    let old : State := { full with line.peers := full.line.peers.map fun p => { p with lastHeard := 9799 } }
    nextIs (exec (.loadReceived (load7 1)) old) (fun t =>
        t.line.peers.length == 32 && t.line.peers.head?.map (fun p => p.station) == some 11 &&
          t.line.peers.getLast? == some ⟨7, 120, 10000⟩) = true ∧
      nextIs (exec (.loadReceived (fromStation 7 (.load 120 2 true)))
          { demo with line := { Line.off with state := .silent, joiningTimer := some 10040 } }) (fun t =>
        t.line.joiningHalt) = true := by decide +kernel

/-- R145: a LOAD heard in JOINING enters its station, and sets the joining-halt flag when it carries the halted flag. -/
theorem test_hyp_loadJoining :
    let s : State := { demo with line := { Line.off with state := .joining, joiningTimer := some 10040 } }
    Hears s .load (fromStation 7 (.load 120 1 true)) ∧
      nextIs (exec (.loadReceived (fromStation 7 (.load 120 1 true))) s) (fun t =>
        t.line.peers == [⟨7, 120, 10000⟩] && t.share.peerSum == 120000 && t.line.joiningHalt) = true :=
  ⟨hears_of (by decide +kernel), by decide +kernel⟩

/-- A HALT and a RESUME of the own number act (R147). -/
theorem test_hyp_ownHalt :
    (SegmentSafe demo ∧ (fromStation 5 (.halt .stopInput)).valid .halt = true ∧
        (fromStation 5 .resume).valid .resume = true) ∧
      nextIs (exec (.haltReceived (fromStation 5 (.halt .stopInput))) demo) (fun t =>
        t.halt == some .line && t.line.state == .silent) = true ∧
      nextIs (exec (.resumeReceived (fromStation 5 .resume)) halted) (fun t =>
        t.halt.isNone && t.line.state == .silent) = true :=
  ⟨⟨segment_of (by decide +kernel), by decide +kernel⟩, by decide +kernel⟩

/-- A frame with a wrong CRC, and one that bears the own number. -/
theorem test_hyp_framesChecked :
    (Settled demo ∧ ({ cue7 with crc := 0 } : Frame).valid .cue = false) ∧
      ((fromStation 5 (.cue 0 9)).valid .cue = true ∧ (fromStation 5 (.cue 0 9)).source = demo.settings.station) ∧
      nextIs (exec (.cueReceived (fromStation 5 (.cue 0 9))) demo) (fun t =>
        t.line.state == .silent && t.faults.records.getLast? == some ⟨.duplicate, 5, 10000, 10000, 0⟩) = true ∧
      nextIs (exec (.cueReceived (fromStation 5 (.cue 0 9)))
          { demo with line.queue := [⟨.cue 0 9, 9000, true, 0⟩] }) (fun t => t.line.state == .active) = true :=
  ⟨⟨⟨rfl, rfl⟩, by decide +kernel⟩, by decide +kernel⟩

def sending (errors : Nat) : State :=
  { demo with line.queue := [⟨.cue 0 9, 9000, true, 0⟩], line.errors := errors }

def sendingIntent : State :=
  { settling none with
    player.intentSent := false, player.windowEnd := none, player.claim := 3
    line.queue := [⟨.talkIntent 4 1, 9990, true, 3⟩] }

theorem test_hyp_attempts :
    ((sending 0).transmitting = true ∧ (sending 0).line.heldLoad = none ∧ sendingIntent.player.state = .settling) ∧
      nextIs (exec .transmissionAttempt { demo with line.queue := [⟨.cue 0 9, 9000, false, 0⟩] }) (fun t =>
        t.transmitting) = true ∧
      nextIs (exec .arbitrationLost (sending 14)) (fun t => !t.transmitting && t.line.errors == 14) = true ∧
      nextIs (exec .readbackAbort (sending 14)) (fun t => t.line.errors == 15 && t.line.state == .active) = true ∧
      nextIs (exec .readbackAbort (sending 15)) (fun t =>
        t.line.state == .mute && t.line.muteTimer == some 10100) = true ∧
      nextIs (exec .transmissionSuccess (sending 14)) (fun t => t.line.queue.isEmpty && t.line.errors == 0) = true ∧
      nextIs (exec .transmissionSuccess sendingIntent) (fun t =>
        t.player.intentSent && t.player.windowEnd == some 10006) = true := by decide +kernel

/-- A claim whose TALK_INTENT waits, with another in transmission. -/
def claiming : State :=
  { sendingIntent with line.queue := [⟨.cue 0 9, 9000, true, 0⟩, ⟨.talkIntent 4 1, 9990, false, 3⟩], line.errors := 15 }

/-- R91: the line leaving ACTIVE, by a DUPLICATE or by the sixteenth error, ends such a claim, its intent withdrawn. -/
theorem test_hyp_claimLeavesActive :
    let idle : State := { claiming with line.queue := [⟨.talkIntent 4 1, 9990, false, 3⟩] }
    (WaitsToClaim claiming (say 12000) ∧ WaitsToClaim idle (say 12000) ∧ NothingWaits claiming) ∧
      nextIs (exec .readbackAbort claiming) (fun t =>
        t.line.state == .mute && t.player == backedOff claiming.player (say 12000) &&
          t.line.queue == [⟨.cue 0 9, 9000, false, 0⟩]) = true ∧
      nextIs (exec (.cueReceived (fromStation 5 (.cue 0 9))) idle) (fun t =>
        t.line.state == .silent && t.player == backedOff idle.player (say 12000) && t.line.queue.isEmpty) = true :=
  ⟨⟨⟨rfl, rfl, rfl, by decide +kernel, by decide +kernel, by decide +kernel⟩,
      ⟨rfl, rfl, rfl, by decide +kernel, by decide +kernel, by decide +kernel⟩, .inr rfl⟩, by decide +kernel⟩

def joining (flag : Bool) : State :=
  { demo with line := { Line.off with state := .joining, joiningTimer := some 10000, joiningHalt := flag } }

/-- R134, R146: no attempt while held or MUTE; R138: a LOAD held aside takes the old one's place, or enters. -/
theorem test_hyp_noAttempt :
    let s : State := { demo with line.queue := [⟨.cue 0 9, 9000, false, 0⟩] }
    let sent : State := { demo with line.queue := [load8 7 true], line.heldLoad := some (load8 9 false) }
    nextIs (exec .transmissionAttempt { s with line.stuckHold := true }) (fun t => !t.transmitting) = true ∧
      nextIs (exec .transmissionAttempt { s with line.state := .mute }) (fun t => !t.transmitting) = true ∧
      nextIs (exec .arbitrationLost sent) (fun t =>
        t.line.queue == [load8 9 false] && t.line.heldLoad.isNone) = true ∧
      nextIs (exec .transmissionSuccess sent) (fun t =>
        t.line.queue == [load8 9 false] && t.line.heldLoad.isNone) = true ∧ demo.player.bounced = false := by
  decide +kernel

/-- R145, R152: a STOP input held at the end of joining halts with STOP_INPUT; a SILENT line stays SILENT; a station
HALTED already stays HALTED, and announces that. The lamps fade to 30 W. -/
theorem test_hyp_joiningEnds :
    let stop := (joining false).setInput 4 ⟨true, true, 0, none, none⟩
    let silent : State := { joining false with line := { (joining false).line with state := .silent } }
    let held : State := { joining true with halt := some .stopInput }
    (SegmentSafe stop ∧ stop.stopLevel = true ∧ silent.considerations .start = []) ∧
      nextIs (exec .joiningTimerExpiry stop) (fun t =>
        t.halt == some .stopInput && t.line.state == .active &&
          t.faults.records.getLast? == some ⟨.halted, 0, 10000, 10000, 0⟩ &&
          t.line.queue == [⟨.halt .stopInput, 10000, false, 0⟩, ⟨.load 30 1 true, 10000, false, 0⟩]) = true ∧
      nextIs (exec .joiningTimerExpiry silent) (fun t => t == { silent with line.joiningTimer := none }) = true ∧
      nextIs (exec .joiningTimerExpiry held) (fun t =>
        t.halt == some .stopInput && t.line.queue == [⟨.load 0 1 true, 10000, false, 0⟩]) = true :=
  ⟨⟨segment_of (by decide +kernel), by decide +kernel⟩, by decide +kernel⟩

theorem test_hyp_lineTimers :
    SegmentSafe (joining true) ∧
      ((joining false).considerations .start = [] ∧ (joining true).stopLevel = false ∧ (joining true).halt = none) ∧
      nextIs (exec .joiningTimerExpiry (joining false)) (fun t =>
        t.line.state == .active && t.line.queue == [⟨.load 0 1 false, 10000, false, 0⟩]) = true ∧
      nextIs (exec .joiningTimerExpiry (joining true)) (fun t => t.line.state == .active && t.halt == some .line) = true ∧
      nextIs (exec .muteTimerExpiry
          { demo with line := { Line.off with state := .mute, errors := 16, muteTimer := some 10000 } }) (fun t =>
        t.line.state == .active && t.line.errors == 0) = true ∧
      nextIs (exec .lineStuck demo) (fun t =>
        t.line.stuckHold && t.faults.records.getLast? == some ⟨.lineStuck, 0, 10000, 10000, 0⟩) = true ∧
      nextIs (exec .stuckHoldClear { demo with line.stuckHold := true }) (fun t => !t.line.stuckHold) = true :=
  ⟨segment_of (by decide +kernel), by decide +kernel⟩

/-- R145: the end of joining raises START. -/
theorem test_hyp_startScene :
    let s := withScene (joining false) (scene .start [wait5])
    s.considerations .start = [.consider .start 0] ∧ Starts s 0 (scene .start [wait5]) wait5 0 ∧
      nextIs (exec .joiningTimerExpiry s) (fun t =>
        t.line.state == .active && t.engine == (startedIn s 0 (scene .start [wait5]) wait5 0).engine) = true :=
  ⟨by decide +kernel, starts_of (by decide +kernel), by decide +kernel⟩

/-- The values at the ends of their fields. -/
theorem test_hyp_frames :
    (FrameBody.talkIntent 7 65535).fits = true ∧ (FrameBody.load 65535 7 true).fits = true ∧
      (encodeFrame 62 (.load 65535 7 true)).valid .load = true ∧
      readBody .talkIntent (encodeFrame 1 (.talkIntent 7 65535)) = .talkIntent 7 65535 := by decide +kernel

theorem test_hyp_inv : Inv demo ∧ nextIs (Machine.step demo) (fun t => t.pending == [.idleTimerExpiry]) = true :=
  ⟨⟨⟨rfl, rfl⟩, ⟨by decide +kernel, by decide +kernel, by decide +kernel, by decide +kernel⟩, by decide +kernel,
    nofun, bay_of (by decide +kernel)⟩, by decide +kernel⟩

end Sys2Proof.Tests
end

section
/-! The works of an event: how `State.settle` takes them, and what an event answers once they have ended. -/

namespace Sys2Proof.Machine

variable {s t : State}

/-- The state with the works that an event in progress has left to take. -/
def withWorks (s : State) (ws : List Work) : State := { s with works := ws }

@[simp] theorem works_withWorks (ws : List Work) : (withWorks s ws).works = ws := rfl

@[simp] theorem withWorks_withWorks (a b : List Work) : withWorks (withWorks s a) b = withWorks s b := rfl

theorem withWorks_self {ws : List Work} (h : s.works = ws) : withWorks s ws = s := by unfold withWorks; rw [← h]

theorem raise_eq_withWorks (ws : List Work) : s.raise ws = withWorks s (s.works ++ ws) := rfl

theorem raise_nil (s : State) : s.raise [] = s := by simp [State.raise]

theorem raise_raise (s : State) (a b : List Work) : (s.raise a).raise b = s.raise (a ++ b) := by
  simp [State.raise]

theorem raise_of_none (ws : List Work) (h : s.works = []) : s.raise ws = withWorks s ws := by
  rw [raise_eq_withWorks, h, List.nil_append]

/-! ## Taking the works -/

theorem settle_done (n : Nat) (h : s.works = []) : State.settle n s = some s := by
  cases n <;> simp [State.settle, h]

/-- The first work is taken, and what it raises goes before the works behind it. -/
theorem settle_cons {w : Work} {rest : List Work} (n : Nat) (h : s.works = w :: rest) :
    State.settle (n + 1) s =
      State.settle n (withWorks ((withWorks s []).take w) (((withWorks s []).take w).works ++ rest)) := by
  rw [State.settle, h]
  rfl

theorem settle_mono : ∀ {n m : Nat} {s t : State}, n ≤ m → State.settle n s = some t → State.settle m s = some t
  | 0, m, s, t, _, h => by
    unfold State.settle at h
    split at h
    · rename_i hw
      cases h
      exact settle_done m (List.isEmpty_iff.1 hw)
    · cases h
  | n + 1, m, s, t, hm, h => by
    obtain ⟨m, rfl⟩ : ∃ k, m = k + 1 := ⟨m - 1, by omega⟩
    cases hw : s.works with
    | nil => rwa [settle_done _ hw] at h ⊢
    | cons w rest =>
      rw [settle_cons _ hw] at h ⊢
      exact settle_mono (by omega) h

/-- The works at the front come to their end before the works behind them. -/
theorem settle_append : ∀ {n m : Nat} {s t u : State} {ws rest : List Work}, State.settle n (withWorks s ws) = some t →
    State.settle m (withWorks t rest) = some u → State.settle (n + m) (withWorks s (ws ++ rest)) = some u
  | 0, m, s, t, u, ws, rest, h, h' => by
    unfold State.settle at h
    split at h
    · rename_i hw
      cases h
      rw [works_withWorks, List.isEmpty_iff] at hw
      rwa [hw, List.nil_append, Nat.zero_add]
    · cases h
  | n + 1, m, s, t, u, [], rest, h, h' => by
    rw [settle_done _ rfl] at h
    cases h
    exact settle_mono (by omega) h'
  | n + 1, m, s, t, u, w :: ws, rest, h, h' => by
    rw [settle_cons _ rfl] at h
    rw [show n + 1 + m = n + m + 1 by omega, settle_cons _ (rest := ws ++ rest) rfl, ← List.append_assoc]
    exact settle_append h h'

/-- A work that raises no other. -/
theorem settle_one {w : Work} (ht : (withWorks s []).take w = t) (hw : t.works = []) :
    State.settle 1 (withWorks s [w]) = some t := by
  rw [settle_cons 0 rfl, withWorks_withWorks, ht, hw, List.append_nil, withWorks_self hw]
  exact settle_done 0 hw

/-- Works that each leave the state as it is. -/
theorem settle_idle : ∀ {ws : List Work}, (∀ w ∈ ws, (withWorks s []).take w = withWorks s []) →
    State.settle ws.length (withWorks s ws) = some (withWorks s [])
  | [], _ => settle_done 0 rfl
  | w :: ws, h => by
    rw [List.length_cons, Nat.add_comm]
    exact settle_append (ws := [w]) (settle_one (h w List.mem_cons_self) rfl)
      (settle_idle fun v hv => h v (List.mem_cons_of_mem _ hv))

/-! ## Events -/

/-- An event whose works have ended answers a next state, with the announcement it owes. -/
theorem event_ends {body : State → State} {u : State} {n : Nat} (hb : body s = u) (h : State.settle n u = some t)
    (hn : n ≤ 1000) : event body s = .next t.announce := by
  have he : n ≤ eventFuel := hn.trans (by norm_num [eventFuel])
  unfold event
  rw [hb, settle_mono he h]

/-- An event that raises one work, which raises none, and owes no announcement. -/
theorem event_one {body : State → State} {u : State} {w : Work} (hb : body s = u.raise [w]) (hu : u.works = [])
    (ht : u.take w = t) (hs : Settled t) : event body s = .next t := by
  rw [raise_of_none _ hu] at hb
  rw [event_ends hb (settle_one (by rwa [withWorks_self hu]) hs.noWorks) (by decide), announce_none hs.noCheck]

/-- An event that raises no work and owes no announcement. -/
theorem event_quiet {body : State → State} {u : State} (hb : body s = u) (hu : Settled u) : event body s = .next u := by
  rw [event_ends hb (settle_done 0 hu.noWorks) (by decide), announce_none hu.noCheck]

end Sys2Proof.Machine
end

section
/-! Triggers and starts (R4 to R7): the tests a trigger meets, and what a start changes. -/

namespace Sys2Proof.Machine

variable {s t : State}

/-! ## Choosing a slot -/

/-- The lowest slot that meets a test. -/
theorem find_lowest_slot (p : Fin 4 → Bool) (k : Fin 4) (hk : p k = true) (hl : ∀ j, j < k → p j = false) :
    (List.finRange 4).find? p = some k := by
  revert p k
  decide

theorem find_no_slot (p : Fin 4 → Bool) (h : ∀ j, p j = false) : (List.finRange 4).find? p = none := by
  simp [List.find?_eq_none, h]

theorem freeSlot_lowest {k : Fin 4} (h : s.engine.slots[k].run = none)
    (hl : ∀ j : Fin 4, j < k → s.engine.slots[j].run ≠ none) : s.freeSlot = some k :=
  find_lowest_slot _ k (by simp only [h, Option.isNone_none]) fun j hj => by
    simpa only [Option.isNone_eq_false_iff, Option.isSome_iff_ne_none] using hl j hj

theorem activeSlot_none {n : Fin 64} (h : ∀ (j : Fin 4) run, s.engine.slots[j].run = some run → run.scene ≠ n) :
    s.activeSlot n = none :=
  find_no_slot _ fun j => by
    split
    · rename_i i hi
      simpa using h j i hi
    · rfl

/-! ## Starts -/

theorem Starts.congr {n : Fin 64} {sc : Scene} {first : StepRecord} {k : Fin 4} (h : Starts s n sc first k)
    (hsc : t.engine.scenes = s.engine.scenes) (hsl : t.engine.slots = s.engine.slots)
    (hc : t.engine.cooldowns = s.engine.cooldowns) (hh : t.halt = s.halt)
    (ho : t.inputs.occupancy = s.inputs.occupancy) : Starts t n sc first k where
  present := by rw [← h.present]; unfold State.scene?; rw [hsc]
  step := h.step
  delay := h.delay
  running := hh.trans h.running
  visitors hv := ho ▸ h.visitors hv
  cooled := by rw [hc]; exact h.cooled
  inactive := by rw [hsl]; exact h.inactive
  free := by rw [hsl]; exact h.free
  lowest := by rw [hsl]; exact h.lowest

/-- R5: the tests let the scene start, in the lowest FREE slot. -/
theorem consider_starts {n : Fin 64} {sc : Scene} {first : StepRecord} {k : Fin 4} (ev : TriggerEvent)
    (h : Starts s n sc first k) : s.consider ev n = s.startScene k n sc ev := by
  have hv : (sc.needsPresence && s.inputs.occupancy == 0) = false := by
    cases hp : sc.needsPresence
    · rfl
    · have := h.visitors hp
      simp; omega
  unfold State.consider
  simp only [h.present, State.halted, h.running, hv, h.cooled, activeSlot_none h.inactive, Option.isSome_none,
    Bool.false_eq_true, if_false]
  unfold State.placeScene
  rw [freeSlot_lowest h.free h.lowest]

/-- The latch of the input that triggered a start, or whose trigger is refused while HALTED, is taken away (R5, R7). -/
def latchTaken (s : State) (ev : TriggerEvent) : State :=
  match ev with
  | .input i => s.clearLatch i
  | _ => s

/-- R7: a scene whose first step has a delay is started, and takes the latch of the input that triggered it. -/
theorem startScene_later {sc : Scene} {first : StepRecord} (k : Fin 4) (n : Fin 64) (ev : TriggerEvent)
    (hf : sc.steps[0]? = some first) (hd : 0 < first.delay) :
    s.startScene k n sc ev = latchTaken (startedIn s n sc first k) ev := by
  have hd : first.delay ≠ 0 := by omega
  unfold State.startScene
  simp only [hf, Option.map_some, Option.getD_some, hd, if_false]
  cases ev <;> rfl

theorem take_consider_starts {n : Fin 64} {sc : Scene} {first : StepRecord} {k : Fin 4} (ev : TriggerEvent)
    (h : Starts s n sc first k) (hev : ∀ i, ev ≠ .input i) :
    s.take (.consider ev n) = startedIn s n sc first k := by
  show s.consider ev n = _
  rw [consider_starts ev h, startScene_later k n ev h.step h.delay]
  cases ev with
  | input i => exact absurd rfl (hev i)
  | _ => rfl

/-! ## Retakes (R6) -/

theorem retake_unasked {n : Fin 64} (h : ∀ sc, s.scene? n = some sc → NoRetake s sc) : s.retake n = s := by
  unfold State.retake
  cases hs : s.scene? n with
  | none => rfl
  | some sc =>
    simp only []
    cases ht : sc.trigger <;> simp only []
    next i =>
      rw [if_neg]
      rintro ⟨hp, hl⟩
      rw [h sc hs i ht hp] at hl
      cases hl

theorem retake_kept {n : Fin 64} {sc : Scene} {i : Fin 8} (hs : s.scene? n = some sc) (ht : sc.trigger = .input i)
    (hp : sc.policy = .hold) (hl : (s.inputs.inputs[i].latch).isSome = true) :
    s.retake n = s.consider (.input i) n := by
  unfold State.retake
  simp only [hs, ht]
  rw [if_pos ⟨hp, hl⟩]

/-! ## The end of a cooldown -/

theorem inShow_of_ready (h : Ready s) : s.inShow = true := by simp [State.inShow, h.phase]

theorem exec_cooldownEnd {n : Fin 64} {e : Tick} (h : Ready s) (hc : s.engine.cooldowns[n] = some e) (he : e ≤ s.now) :
    exec (.cooldownEnd n) s = event (fun t => (t.setCooldown n none).raise [.retake n]) s := by
  show execCooldownEnd n s = _
  unfold execCooldownEnd State.cooldownDue
  rw [inShow_of_ready h, hc, if_pos]
  simpa [reached] using he

theorem setCooldown_setCooldown (n : Fin 64) (a b : Option Tick) :
    (s.setCooldown n a).setCooldown n b = s.setCooldown n b := by
  simp only [State.setCooldown, Vector.set_set]

/-- Settles O21: the retake check that the end of a cooldown makes (R6) finds no latch kept, or starts the scene. -/
theorem cooldownEndServesKeptLatch : Obligations.CooldownEndServesKeptLatch := by
  intro s n e hr hc he
  rw [exec_cooldownEnd hr hc he]
  have hu : Settled (s.setCooldown n none) := ⟨hr.settled.noWorks, hr.settled.noCheck⟩
  constructor
  · intro hno
    exact event_one rfl hu.noWorks (retake_unasked fun sc hs i => hno sc i hs) hu
  · intro sc first i k hs ht hp hl hf hd hh hv ha hk hj
    have hst : Starts (s.setCooldown n none) n sc first k :=
      ⟨hs, hf, hd, hh, hv, by simp, ha, hk, hj⟩
    refine event_one rfl hu.noWorks ?_ ⟨hu.noWorks, hu.noCheck⟩
    show State.retake _ n = _
    rw [retake_kept (s := s.setCooldown n none) hs ht hp hl, consider_starts _ hst, startScene_later _ _ _ hf hd]
    simp only [startedIn, setCooldown_setCooldown]
    rfl

end Sys2Proof.Machine
end

section
/-! The scenes bound to an event, and received CUEs (R4, R5, R21). -/

namespace Sys2Proof.Machine

variable {s t : State}

/-- R4: whether a present scene's trigger names the event. -/
def boundAt (s : State) (ev : TriggerEvent) (n : Fin 64) : Bool := (s.scene? n).any ev.bound

/-- R5: the considerations of an event are those of its bound scenes, in ascending scene number. -/
theorem considerations_eq (s : State) (ev : TriggerEvent) :
    s.considerations ev = ((List.finRange 64).filter (boundAt s ev)).map (Work.consider ev) := by
  unfold State.considerations
  induction List.finRange 64 with
  | nil => rfl
  | cons n l ih =>
    have hb : boundAt s ev n = (s.scene? n).any ev.bound := rfl
    rw [List.filterMap_cons, List.filter_cons, hb, ih]
    cases s.scene? n with
    | none => rfl
    | some sc => cases h : ev.bound sc <;> simp [h]

theorem considerations_sorted (s : State) (ev : TriggerEvent) :
    ((List.finRange 64).filter (boundAt s ev)).Pairwise fun m n => m < n :=
  List.Pairwise.sublist List.filter_sublist (List.sortedLT_finRange 64).pairwise

/-- A work raised for one scene is of a bound scene. -/
theorem considerations_pair {ev : TriggerEvent} {m n : Fin 64}
    (h : s.considerations ev = [.consider ev m, .consider ev n]) : m < n := by
  have hs := considerations_sorted s ev
  rw [considerations_eq] at h
  obtain ⟨a, l, hl, ha, h1⟩ := List.map_eq_cons_iff.1 h
  obtain ⟨b, l, rfl, hb, -⟩ := List.map_eq_cons_iff.1 h1
  cases ha; cases hb
  rw [hl] at hs
  exact List.rel_of_pairwise_cons hs List.mem_cons_self

/-- R4: a CUE names the scenes of its tag and of its source or of any. -/
theorem bound_cue_iff (source tag : Nat) (sc : Scene) :
    (TriggerEvent.cue source tag).bound sc = true ↔
      (sc.trigger = .cue source ∨ sc.trigger = .cue 0) ∧ sc.cueTag = tag := by
  unfold TriggerEvent.bound
  cases sc.trigger <;> simp

theorem bound_input_iff (i : Fin 8) (sc : Scene) :
    (TriggerEvent.input i).bound sc = true ↔ sc.trigger = .input i := by
  unfold TriggerEvent.bound
  cases sc.trigger <;> simp [eq_comm (a := i)]

theorem boundAt_iff {ev : TriggerEvent} {n : Fin 64} :
    boundAt s ev n = true ↔ ∃ sc, s.scene? n = some sc ∧ ev.bound sc = true := by
  simp [boundAt, Option.any_eq_true]

/-! ## Raising a trigger -/

/-- An event that raises a trigger no scene is bound to. -/
theorem event_trigger_unbound {body : State → State} {u : State} {ev : TriggerEvent} (hb : body s = u.raiseTrigger ev)
    (hu : Settled u) (h : u.considerations ev = []) : event body s = .next u := by
  rw [State.raiseTrigger, h, raise_nil] at hb
  exact event_quiet hb hu

/-- An event that raises a trigger, other than an input's, for one scene that the tests let start. -/
theorem event_trigger_starts {body : State → State} {u : State} {ev : TriggerEvent} {n : Fin 64} {sc : Scene}
    {first : StepRecord} {k : Fin 4} (hb : body s = u.raiseTrigger ev) (hu : Settled u)
    (h : u.considerations ev = [.consider ev n]) (hst : Starts u n sc first k) (hev : ∀ i, ev ≠ .input i) :
    event body s = .next (startedIn u n sc first k) := by
  rw [State.raiseTrigger, h] at hb
  exact event_one hb hu.noWorks (take_consider_starts ev hst hev) ⟨hu.noWorks, hu.noCheck⟩

/-! ## Received CUEs -/

theorem hears_hearPeer {k : FrameKind} {f : Frame} (h : Hears s k f) (n : Nat) : Settled (s.hearPeer n) :=
  ⟨h.ready.settled.noWorks, h.ready.settled.noCheck⟩

theorem Starts.hearPeer {n : Fin 64} {sc : Scene} {first : StepRecord} {k : Fin 4} (h : Starts s n sc first k)
    (station : Nat) : Starts (s.hearPeer station) n sc first k := h.congr rfl rfl rfl rfl rfl

/-- R21: a CUE for every station or for this one raises its trigger. -/
theorem cue_body {f : Frame} (h : Hears s .cue f) (hd : f.byte 0 = 0 ∨ f.byte 0 = s.settings.station) :
    s.receive .cue f (State.hearCue f.source (f.byte 0) (f.byte 1)) =
      (s.hearPeer f.source).raiseTrigger (.cue f.source (f.byte 1)) := by
  rw [receive_heard h]
  unfold State.hearCue
  exact if_pos hd

/-- R21: any other CUE raises none. -/
theorem cue_body_away {f : Frame} (h : Hears s .cue f) (hd : ¬(f.byte 0 = 0 ∨ f.byte 0 = s.settings.station)) :
    s.receive .cue f (State.hearCue f.source (f.byte 0) (f.byte 1)) = s.hearPeer f.source := by
  rw [receive_heard h]
  unfold State.hearCue
  exact if_neg hd

theorem cue_unbound {f : Frame} (h : Hears s .cue f)
    (hn : (f.byte 0 ≠ 0 ∧ f.byte 0 ≠ s.settings.station) ∨ s.considerations (.cue f.source (f.byte 1)) = []) :
    exec (.cueReceived f) s = .next (s.hearPeer f.source) := by
  by_cases hd : f.byte 0 = 0 ∨ f.byte 0 = s.settings.station
  · have hc : s.considerations (.cue f.source (f.byte 1)) = [] := hn.resolve_left fun hx => hd.elim hx.1 hx.2
    exact event_trigger_unbound (cue_body h hd) (hears_hearPeer h _) hc
  · exact event_quiet (cue_body_away h hd) (hears_hearPeer h _)

/-- Settles O22: the considerations of an event are its bound scenes in order, and a CUE's are taken at once. -/
theorem cueStartsBoundScene : Obligations.CueStartsBoundScene := by
  refine ⟨fun s ev => ⟨_, considerations_eq s ev, considerations_sorted s ev, fun n => ?_⟩, fun s f h => ?_⟩
  · rw [List.mem_filter, boundAt_iff]
    simp only [List.mem_finRange, true_and]
    cases ev with
    | cue source tag => simp only [bound_cue_iff]
    | input i => simp only [bound_input_iff]
    | _ =>
      refine exists_congr fun sc => and_congr_right fun _ => ?_
      unfold TriggerEvent.bound
      cases sc.trigger <;> simp
  · refine ⟨cue_unbound h, fun n sc first k hd hc hst => ?_⟩
    exact event_trigger_starts (cue_body h hd) (hears_hearPeer h _) hc (hst.hearPeer _) (by simp)

end Sys2Proof.Machine
end

section
/-! Activations of the visitor inputs (R30, R31, R34 to R37): presses, and the bay's count. -/

namespace Sys2Proof.Machine

variable {s t : State}

/-! ## Activations -/

/-- R30: an activating sample acts on the state with the activation noted. -/
theorem sampleInput_activates {i : Fin 8} {code : BitVec 10} (h : Activates s i code) :
    s.sampleInput i code = (sampled s i code).activation i := by
  unfold State.sampleInput
  simp only [h.before, h.after, Bool.true_eq_false, if_false, if_true]
  rfl

theorem activation_noted (s : State) (i : Fin 8) (code : BitVec 10) :
    (sampled s i code).setInput i
        { (sampled s i code).inputs.inputs[i] with lastActivation := some (sampled s i code).now } =
      activated s i code := by
  simp [sampled, activated, State.setInput, Vector.set_set]
  rfl

theorem exec_inputSample {i : Fin 8} {code : BitVec 10} (h : Ready s) (ha : Activates s i code) :
    exec (.inputSample i code) s = event (fun t => t.sampleInput i code) s := by
  show execInputSample i code s = _
  unfold execInputSample
  rw [inShow_of_ready h, if_pos]
  simpa using ha.used

theorem activation_button {i : Fin 8} (code : BitVec 10)
    (hk : s.settings.inputs[i].kind = .button ∨ s.settings.inputs[i].kind = .beam) :
    (sampled s i code).activation i = (activated s i code).press i := by
  unfold State.activation
  rw [activation_noted]
  have hs : (activated s i code).settings.inputs[i].kind = s.settings.inputs[i].kind := rfl
  rcases hk with hk | hk <;> simp only [hs, hk]

theorem activation_entry {i : Fin 8} (code : BitVec 10) (hk : s.settings.inputs[i].kind = .entry) :
    (sampled s i code).activation i = (activated s i code).entry := by
  unfold State.activation
  rw [activation_noted]
  have hs : (activated s i code).settings.inputs[i].kind = s.settings.inputs[i].kind := rfl
  simp only [hs, hk]

theorem activation_exit {i : Fin 8} (code : BitVec 10) (hk : s.settings.inputs[i].kind = .exit) :
    (sampled s i code).activation i = (activated s i code).exitBay := by
  unfold State.activation
  rw [activation_noted]
  have hs : (activated s i code).settings.inputs[i].kind = s.settings.inputs[i].kind := rfl
  simp only [hs, hk]

theorem settled_activated {i : Fin 8} {code : BitVec 10} (h : Ready s) : Settled (activated s i code) :=
  ⟨h.settled.noWorks, h.settled.noCheck⟩

/-! ## Presses -/

/-- The state at a press with a latch and a scene engine: the activation noted, and the quiet timer moved on (R36). -/
def pressedWith (s : State) (i : Fin 8) (code : BitVec 10) (latch : Option Tick) (engine : SceneEngine) : State :=
  { (activated s i code).bayActivity with
    engine := engine
    inputs.inputs :=
      (activated s i code).inputs.inputs.set i.val { (activated s i code).inputs.inputs[i] with latch := latch } }

/-- The work that ends the pass of an input of hold time 0 (R31). -/
def passEnd (s : State) (i : Fin 8) : List Work := if s.settings.inputs[i].hold = 0 then [.latchPassEnd i] else []

/-- R31: a press raises the input's trigger with the latch set. -/
theorem press_eq (s : State) (i : Fin 8) (code : BitVec 10) :
    (activated s i code).press i =
      (pressedWith s i code (some s.now) s.engine).raise (s.considerations (.input i) ++ passEnd s i) := by
  unfold State.press passEnd
  by_cases h : s.settings.inputs[i].hold = 0
  · rw [if_pos h, ← raise_raise]
    exact if_pos h
  · rw [if_neg h, List.append_nil]
    exact if_neg h

theorem pressedWith_clearLatch (s : State) (i : Fin 8) (code : BitVec 10) (latch : Option Tick) (engine : SceneEngine) :
    (pressedWith s i code latch engine).clearLatch i = pressedWith s i code none engine := by
  simp [pressedWith, State.clearLatch, State.setInput, Vector.set_set, State.bayActivity]

/-- What a press has changed, the scene engine apart. -/
theorem pressedWith_facts (s : State) (i : Fin 8) (code : BitVec 10) (latch : Option Tick) (engine : SceneEngine)
    (h : Activates s i code) :
    let t := pressedWith s i code latch engine
    t.inputs.inputs[i].debounced = true ∧ t.inputs.inputs[i].lastActivation = some s.now ∧
      t.inputs.inputs[i].latch = latch ∧ (∀ j : Fin 8, j ≠ i → t.inputs.inputs[j] = s.inputs.inputs[j]) ∧
      t.inputs.quietTimer = s.inputs.quietTimer.map (fun _ => s.now + 100 * s.settings.quietSeconds) ∧
      t = { s with
        inputs.inputs := t.inputs.inputs, inputs.quietTimer := t.inputs.quietTimer, engine := engine } := by
  have ha := h.after
  refine ⟨?_, ?_, ?_, fun j hj => ?_, rfl, rfl⟩
  · simpa [pressedWith, activated, State.bayActivity] using ha
  · simp [pressedWith, activated, State.bayActivity]
  · simp [pressedWith, activated, State.bayActivity]
  · have hj : i.val ≠ j.val := fun h => hj (Fin.ext h.symm)
    simp [pressedWith, activated, State.bayActivity, Vector.getElem_set_ne, hj]

/-- R31: at the end of the pass an input of hold time 0 loses its latch. -/
theorem settle_passEnd (s : State) (i : Fin 8) (code : BitVec 10) (latch : Option Tick) (engine : SceneEngine)
    (hw : s.works = []) :
    State.settle 1 (withWorks (pressedWith s i code latch engine) (passEnd s i)) =
      some (pressedWith s i code (if s.settings.inputs[i].hold = 0 then none else latch) engine) := by
  have hc : withWorks (pressedWith s i code latch engine) [] = pressedWith s i code latch engine := withWorks_self hw
  unfold passEnd
  split
  · refine settle_one ?_ hw
    rw [hc]
    exact pressedWith_clearLatch s i code latch engine
  · rw [hc]
    exact settle_done 1 hw

/-- A press whose considerations end with a latch and a scene engine. -/
theorem exec_press {i : Fin 8} {code : BitVec 10} {n : Nat} {latch : Option Tick} {engine : SceneEngine} (hr : Ready s)
    (ha : Activates s i code) (hk : s.settings.inputs[i].kind = .button ∨ s.settings.inputs[i].kind = .beam)
    (hn : n ≤ 100)
    (h : State.settle n (withWorks (pressedWith s i code (some s.now) s.engine) (s.considerations (.input i))) =
      some (pressedWith s i code latch engine)) :
    exec (.inputSample i code) s =
      .next (pressedWith s i code (if s.settings.inputs[i].hold = 0 then none else latch) engine) := by
  have hb : s.sampleInput i code =
      withWorks (pressedWith s i code (some s.now) s.engine) (s.considerations (.input i) ++ passEnd s i) := by
    rw [sampleInput_activates ha, activation_button code hk, press_eq]
    exact raise_of_none _ hr.settled.noWorks
  rw [exec_inputSample hr ha,
    event_ends hb (settle_append h (settle_passEnd s i code latch engine hr.settled.noWorks)) (by omega)]
  exact congrArg _ (announce_none hr.settled.noCheck)

/-- The works of a press with one bound scene: its consideration. -/
theorem settle_press_bound {i : Fin 8} {code : BitVec 10} {n : Fin 64} {latch : Option Tick} {engine : SceneEngine}
    (hr : Ready s) (hc : s.considerations (.input i) = [.consider (.input i) n])
    (ht : (pressedWith s i code (some s.now) s.engine).consider (.input i) n = pressedWith s i code latch engine) :
    State.settle 1 (withWorks (pressedWith s i code (some s.now) s.engine) (s.considerations (.input i))) =
      some (pressedWith s i code latch engine) := by
  rw [hc]
  refine settle_one ?_ hr.settled.noWorks
  rw [withWorks_self (s := pressedWith s i code (some s.now) s.engine) hr.settled.noWorks]
  exact ht

theorem activeSlot_some {n : Fin 64} (h : ∃ (k : Fin 4) (run : Running), s.engine.slots[k].run = some run ∧ run.scene = n) :
    ∃ k, s.activeSlot n = some k := by
  obtain ⟨k, run, hk, hn⟩ := h
  refine Option.isSome_iff_exists.1 (List.find?_isSome.2 ⟨k, List.mem_finRange k, ?_⟩)
  simp only [hk, hn, beq_self_eq_true]

/-- R5: an active scene under IGNORE or HOLD is left as it is. -/
theorem consider_active {n : Fin 64} {sc : Scene} (ev : TriggerEvent) (hh : s.halt = none) (hs : s.scene? n = some sc)
    (ha : ∃ (k : Fin 4) (run : Running), s.engine.slots[k].run = some run ∧ run.scene = n) (hp : sc.policy ≠ .restart) :
    s.consider ev n = s := by
  obtain ⟨k, hk⟩ := activeSlot_some ha
  unfold State.consider
  simp only [hs, State.halted, hh, hk, hp, Option.isSome_none, Bool.false_eq_true, if_false, ite_self]

/-- R5: while HALTED a bound scene is refused, and the latch of its input cleared. -/
theorem consider_halted {n : Fin 64} {sc : Scene} (ev : TriggerEvent) (hh : s.halt ≠ none) (hs : s.scene? n = some sc) :
    s.consider ev n = latchTaken s ev := by
  unfold State.consider
  rw [hs]
  simp only [State.halted, Option.isSome_iff_ne_none.2 hh, if_true]
  cases ev <;> rfl

/-- Settles O17: what the consideration of the input's trigger makes of the latch, and the pass's end. -/
theorem pressSetsLatch : Obligations.PressSetsLatch := by
  intro s i code hr ha hk unbound bound active pressed
  have given {latch engine} (h : exec (.inputSample i code) s = .next (pressedWith s i code latch engine)) :
      pressed latch engine := ⟨_, h, pressedWith_facts s i code latch engine ha⟩
  refine ⟨fun h => given (exec_press hr ha hk (n := 1) (by decide) ?_), fun hh hb => given ?_,
    fun n sc first k hc hst => given ?_⟩
  · rcases h with h | ⟨hh, n, sc, hc, hs, hact, hp⟩
    · rw [show s.considerations (.input i) = [] from h, withWorks_self (s := pressedWith s i code _ _) hr.settled.noWorks]
      exact settle_done 1 hr.settled.noWorks
    · exact settle_press_bound hr hc (consider_active _ hh hs hact hp)
  · obtain ⟨n, sc, hc, hs, -⟩ := hb
    have := exec_press hr ha hk (n := 1) (by decide)
      (settle_press_bound hr hc ((consider_halted (s := pressedWith s i code (some s.now) s.engine) _ hh hs).trans
        (pressedWith_clearLatch s i code _ _)))
    rwa [ite_self] at this
  · have hst' : Starts (pressedWith s i code (some s.now) s.engine) n sc first k := hst.congr rfl rfl rfl rfl rfl
    have := exec_press hr ha hk (n := 1) (by decide)
      (settle_press_bound hr hc
        (((consider_starts _ hst').trans (startScene_later k n _ hst.step hst.delay)).trans
          (pressedWith_clearLatch s i code _ (startedIn s n sc first k).engine)))
    rwa [ite_self] at this

/-! ## The bay's count -/

/-- The bay with visitors (R34, R35): the quiet timer set from now. -/
def occupiedBy (s : State) (count : Nat) : State :=
  { s with
    inputs.occupancy := count, inputs.bay := .occupied
    inputs.quietTimer := some (s.now + 100 * s.settings.quietSeconds), inputs.idleTimer := none }

/-- The bay when its last visitor has left (R35 to R37): the idle timer set from now. -/
def emptiedBay (s : State) : State :=
  { s with
    inputs.occupancy := 0, inputs.bay := .empty, inputs.quietTimer := none
    inputs.idleTimer := some (s.now + 100 * s.settings.idleSeconds) }

/-- In an occupied bay the quiet timer runs and the idle timer does not: bay activity sets the one and keeps the other. -/
theorem bayActivity_occupied (hr : s.inShow = true) (hb : BayAgrees s) (h : 0 < s.inputs.occupancy) (count : Nat) :
    { s.bayActivity with inputs.occupancy := count } = occupiedBy s count := by
  have hbay := hb.occupied.2 h
  obtain ⟨q, hq⟩ := Option.isSome_iff_exists.1 ((hb.quiet hr).2 hbay)
  have hi : s.inputs.idleTimer = none := by
    rw [← Option.not_isSome_iff_eq_none, hb.idle hr, hbay]
    simp
  simp only [State.bayActivity, occupiedBy, hq, Option.map_some, ← hbay, ← hi]
  rfl

theorem entry_first (h : s.inputs.occupancy = 0) : s.entry = (occupiedBy s 1).raiseTrigger .enter := by
  unfold State.entry
  rw [if_pos h]
  rfl

theorem entry_more (hr : s.inShow = true) (hb : BayAgrees s) (h : 0 < s.inputs.occupancy) :
    s.entry = occupiedBy s (min 255 (s.inputs.occupancy + 1)) := by
  unfold State.entry
  rw [if_neg (by omega)]
  exact bayActivity_occupied hr hb h _

theorem exitBay_none (h : s.inputs.occupancy = 0) : s.exitBay = s := by
  unfold State.exitBay
  rw [if_pos h]

theorem exitBay_last (h : s.inputs.occupancy = 1) : s.exitBay = (emptiedBay s).raiseTrigger .empty := by
  unfold State.exitBay
  rw [if_neg (by omega), if_pos h]
  rfl

theorem exitBay_fewer (hr : s.inShow = true) (hb : BayAgrees s) (h : 2 ≤ s.inputs.occupancy) :
    s.exitBay = occupiedBy s (s.inputs.occupancy - 1) := by
  unfold State.exitBay
  rw [if_neg (by omega), if_neg (by omega)]
  exact bayActivity_occupied hr hb (by omega) _

theorem bayAgrees_activated (i : Fin 8) (code : BitVec 10) (h : BayAgrees s) : BayAgrees (activated s i code) :=
  ⟨h.range, h.occupied, h.quiet, h.idle⟩

/-- Settles O18: by the count before the activation. -/
theorem occupancyFollowsEntriesAndExits : Obligations.OccupancyFollowsEntriesAndExits := by
  intro s i code hr ha hb n quiet u occupied emptied
  have hu : Settled u := settled_activated hr
  have hshow : u.inShow = true := inShow_of_ready (s := u) ⟨hr.phase, hu⟩
  have hbu : BayAgrees u := bayAgrees_activated i code hb
  rw [exec_inputSample hr ha]
  refine ⟨fun hk => ?_, fun hk => ?_⟩
  · have hbody : s.sampleInput i code = u.entry := by rw [sampleInput_activates ha, activation_entry code hk]
    refine ⟨fun hc => ?_, fun m sc first k h0 hc hst => ?_⟩
    · by_cases h0 : n = 0
      · rw [h0]
        exact event_trigger_unbound (hbody.trans (entry_first h0)) ⟨hu.noWorks, hu.noCheck⟩ (hc h0)
      · exact event_quiet (hbody.trans (entry_more hshow hbu (Nat.pos_of_ne_zero h0))) ⟨hu.noWorks, hu.noCheck⟩
    · exact event_trigger_starts (hbody.trans (entry_first h0)) ⟨hu.noWorks, hu.noCheck⟩ hc hst (by simp)
  · have hbody : s.sampleInput i code = u.exitBay := by rw [sampleInput_activates ha, activation_exit code hk]
    refine ⟨fun h0 => ?_, fun h1 hc => ?_, fun h2 => ?_, fun m sc first k h1 hc hst => ?_⟩
    · have hq : u.inputs.quietTimer = none := by
        rw [← Option.not_isSome_iff_eq_none, hbu.quiet hshow, hbu.occupied]
        exact Nat.not_lt.2 (Nat.le_of_eq h0)
      rw [← hq]
      exact event_quiet (hbody.trans (exitBay_none h0)) hu
    · exact event_trigger_unbound (hbody.trans (exitBay_last h1)) ⟨hu.noWorks, hu.noCheck⟩ hc
    · exact event_quiet (hbody.trans (exitBay_fewer hshow hbu h2)) ⟨hu.noWorks, hu.noCheck⟩
    · exact event_trigger_starts (hbody.trans (exitBay_last h1)) ⟨hu.noWorks, hu.noCheck⟩ hc hst (by simp)

end Sys2Proof.Machine
end

section
/-! Slots: reading one back, moving on, ending and failing (R8, R9, R19, R22, R23), and the completion of an AWAIT. -/

namespace Sys2Proof.Machine

variable {s t : State}

/-! ## Reading a slot back -/

theorem setSlot_same (k : Fin 4) (r : Slot) : (s.setSlot k r).engine.slots[k] = r := Vector.getElem_set_self _

theorem setSlot_other {j k : Fin 4} (r : Slot) (h : j ≠ k) : (s.setSlot k r).engine.slots[j] = s.engine.slots[j] :=
  Vector.getElem_set_ne k.isLt j.isLt fun hv => h (Fin.ext hv.symm)

theorem setSlot_setSlot (k : Fin 4) (a b : Slot) : (s.setSlot k a).setSlot k b = s.setSlot k b := by
  simp only [State.setSlot, Vector.set_set]

/-! ## Moving on -/

/-- R8: the slot stands at its next step. -/
theorem moveOn_next {k : Fin 4} {i : Running} {sc : Scene} {next : StepRecord} (hr : s.engine.slots[k].run = some i)
    (hs : s.scene? i.scene = some sc) (hn : sc.steps[i.stepIndex + 1]? = some next) :
    s.moveOn k = s.setSlot k ⟨some (movedOn s i next), s.engine.slots[k].mark⟩ := by
  unfold State.moveOn
  simp only [hr, hs, Option.bind_some, hn]
  rfl

/-- A slot whose deadline lies ahead has no step to issue, and raises none. -/
theorem raiseRun_later {k : Fin 4} {i : Running} {e : Tick} (hr : s.engine.slots[k].run = some i)
    (hw : i.wait = .delaying e) (he : s.now < e) : s.raiseRun k = s := by
  unfold State.raiseRun
  simp only [hr, hw]
  exact if_neg (Nat.not_le.2 he)

theorem stepDue_later {k : Fin 4} {i : Running} {e : Tick} (hr : s.engine.slots[k].run = some i)
    (hw : i.wait = .delaying e) (he : s.now < e) : s.stepDue k = none := by
  unfold State.stepDue
  simp only [hr, hw]
  exact if_neg (Nat.not_le.2 he)

theorem movedOn_raiseRun {k : Fin 4} {i : Running} {next : StepRecord} {mark : BitVec 8} (hd : 0 < next.delay) :
    (s.setSlot k ⟨some (movedOn s i next), mark⟩).raiseRun k = s.setSlot k ⟨some (movedOn s i next), mark⟩ :=
  raiseRun_later (e := s.now + next.delay) (by rw [setSlot_same]) rfl (Nat.lt_add_of_pos_right hd)

theorem abandons_eq {k : Fin 4} {i : Running} {sc : Scene} (hr : s.engine.slots[k].run = some i)
    (hs : s.scene? i.scene = some sc) : s.abandons k = sc.abandon := by
  unfold State.abandons
  simp only [hr, hs, Option.map_some, Option.getD_some]

/-! ## The end of a running scene -/

theorem ownerAfter_eq (k : Fin 4) (o : Option Owner) :
    (match o with
      | some o => if o.slot = k then none else some o
      | none => none) = ownerAfter k o := by
  unfold ownerAfter
  cases o <;> simp

theorem ownerAfter_other {k : Fin 4} {x : Option Owner} {o : Owner} (h : ownerAfter k x = some o) : o.slot ≠ k := by
  unfold ownerAfter at h
  split at h
  · cases h
  · rename_i hk
    rintro rfl
    exact hk (by rw [h]; rfl)

theorem clearOwners_eq (k : Fin 4) :
    s.clearOwners k =
      { s with
        engine.channelOwners := s.engine.channelOwners.map (ownerAfter k)
        engine.driveOwners := s.engine.driveOwners.map (ownerAfter k) } := by
  have h1 : ∀ (n : Nat) (v : Vector (Option Owner) n),
      (Vector.ofFn fun c : Fin n =>
        match v[c] with
        | some o => if o.slot = k then none else some o
        | none => none) = v.map (ownerAfter k) := by
    intro n v
    ext c hc
    simp only [Vector.getElem_ofFn, Vector.getElem_map, Fin.getElem_fin, ownerAfter_eq]
  exact congrArg₂ (fun a b => { s with engine.channelOwners := a, engine.driveOwners := b }) (h1 12 _) (h1 4 _)

theorem clearOwners_setRun (k : Fin 4) : (s.clearOwners k).setRun k none = freed s k := by
  rw [clearOwners_eq]
  rfl

theorem finishSlot_eq (k : Fin 4) (n : Fin 64) : s.finishSlot k n = (freed s k).raise [.retake n] := by
  unfold State.finishSlot
  rw [clearOwners_setRun]

/-- R89, R98: a cancel changes at most the player's record here. -/
theorem cancelNarration_frame (s : State) (k : Fin 4) (mark : BitVec 8) :
    ∃ p, s.cancelNarration k mark = { s with player := p } := by
  unfold State.cancelNarration
  simp only []
  split
  · split
    · split <;> exact ⟨_, rfl⟩
    · exact ⟨_, rfl⟩
  · exact ⟨_, rfl⟩

theorem cancelTrack_other {k : Fin 4} {mark : BitVec 8} (why : CancelReason)
    (h : s.engine.trackRequester ≠ some ⟨k, mark⟩) : s.cancelTrack k mark why = s := by
  unfold State.cancelTrack
  rw [if_neg h]

/-- R23: the cancel of a running scene that is not the track requester, outside a halt: its narration ended, its slot and
owner records cleared. -/
theorem cancelSlot_other {k : Fin 4} {i : Running} {why : CancelReason} (hr : s.engine.slots[k].run = some i)
    (hw : why ≠ .halted) (ht : s.engine.trackRequester ≠ some ⟨k, s.engine.slots[k].mark⟩) :
    ∃ p, s.cancelNarration k s.engine.slots[k].mark = { s with player := p } ∧
      s.cancelSlot k why =
        if why = .abandoned then State.raise (freed { s with player := p } k) [.retake i.scene]
        else freed { s with player := p } k := by
  obtain ⟨p, hp⟩ := cancelNarration_frame s k s.engine.slots[k].mark
  refine ⟨p, hp, ?_⟩
  unfold State.cancelSlot
  simp only [hr, hw, if_false, hp, or_false]
  rw [cancelTrack_other (s := { s with player := p }) why ht, clearOwners_setRun]

/-- R22, R23: the cancel of a running scene by ABANDON, and the retake check that finds no latch kept (R6). -/
theorem settle_abandoned {k : Fin 4} {i : Running} {sc : Scene} (hr : s.engine.slots[k].run = some i)
    (hs : s.scene? i.scene = some sc) (ht : s.engine.trackRequester ≠ some ⟨k, s.engine.slots[k].mark⟩)
    (hn : NoRetake s sc) (hw : s.works = []) :
    ∃ p, State.settle 1 (s.cancelSlot k .abandoned) = some (freed { s with player := p } k) := by
  obtain ⟨p, -, h⟩ := cancelSlot_other hr (by decide : CancelReason.abandoned ≠ .halted) ht
  refine ⟨p, ?_⟩
  have hf : (freed { s with player := p } k).works = [] := hw
  rw [h, if_pos rfl, raise_of_none _ hf]
  refine settle_one ?_ hf
  rw [withWorks_self hf]
  refine retake_unasked fun sc' hs' => ?_
  have : sc' = sc := Option.some.inj (hs'.symm.trans hs)
  rw [this]
  exact hn

/-! ## The completion of an AWAIT -/

theorem AwaitsNext.awaits {k : Fin 4} {i : Running} {subject : Subject} {next : StepRecord}
    (h : AwaitsNext s k i subject next) : s.engine.slots[k].awaits subject = true := by
  obtain ⟨d, hd⟩ := h.wait
  unfold Slot.awaits
  simp only [h.run, hd, beq_self_eq_true]

/-- The state with a slot's AWAIT completed, before the slot goes on. -/
theorem endAwait_eq {k : Fin 4} {i : Running} {subject : Subject} {next : StepRecord} (out : AwaitOutcome)
    (h : AwaitsNext s k i subject next) :
    s.endAwait subject out k =
      (s.setSlot k ⟨some { i with wait := .completed out }, s.engine.slots[k].mark⟩).raise
        [.awaitDone k s.engine.slots[k].mark] := endAwait_awaits out h.run h.awaits

/-- R19, R22: a slot whose AWAIT has been completed goes on by its outcome. -/
theorem takeAwaitDone_completed {k : Fin 4} {i : Running} {out : AwaitOutcome} {mark : BitVec 8}
    (h : s.engine.slots[k] = ⟨some { i with wait := .completed out }, mark⟩) :
    s.takeAwaitDone k mark = s.completeAwait k (out == .failed) := by
  unfold State.takeAwaitDone State.instanceOf
  simp only [h, if_true]

/-- R19: an AWAIT that has not failed, or has failed under CONTINUE, lets its slot move on to its next step. -/
theorem settle_endAwait {k : Fin 4} {i : Running} {subject : Subject} {next : StepRecord} {out : AwaitOutcome}
    (h : AwaitsNext s k i subject next) (hf : out = .failed → s.abandons k = false) (hw : s.works = []) :
    State.settle 1 (s.endAwait subject out k) =
      some (s.setSlot k ⟨some (movedOn s i next), s.engine.slots[k].mark⟩) := by
  obtain ⟨sc, hs, hn⟩ := h.step
  rw [endAwait_eq out h]
  generalize hu : s.setSlot k ⟨some { i with wait := .completed out }, s.engine.slots[k].mark⟩ = u
  have huk : u.engine.slots[k] = ⟨some { i with wait := .completed out }, s.engine.slots[k].mark⟩ := by
    rw [← hu, setSlot_same]
  have huw : u.works = [] := by rw [← hu]; exact hw
  have hus : u.scene? i.scene = some sc := by rw [← hu]; exact hs
  have hmove : u.moveOn k = s.setSlot k ⟨some (movedOn s i next), s.engine.slots[k].mark⟩ := by
    rw [moveOn_next (i := { i with wait := .completed out }) (by rw [huk]) hus hn, huk, ← hu, setSlot_setSlot]
    rfl
  have hab : u.abandons k = s.abandons k := by
    rw [abandons_eq (i := { i with wait := .completed out }) (by rw [huk]) hus, abandons_eq h.run hs]
  rw [raise_of_none _ huw]
  refine settle_one ?_ hw
  show State.takeAwaitDone _ k _ = _
  rw [withWorks_self huw, takeAwaitDone_completed huk]
  unfold State.completeAwait State.failStep
  have hstep : (if (out == .failed) = true then (if u.abandons k = true then u.cancelSlot k .abandoned else u.moveOn k)
      else u.moveOn k) = s.setSlot k ⟨some (movedOn s i next), s.engine.slots[k].mark⟩ := by
    split
    · rename_i ho
      rw [hab, hf (by simpa using ho), hmove]
      rfl
    · exact hmove
  rw [hstep, movedOn_raiseRun h.delay]

theorem raiseRun_free {k : Fin 4} (h : s.engine.slots[k].run = none) : s.raiseRun k = s := by
  unfold State.raiseRun
  rw [h]

/-- R22: an AWAIT that has failed under ABANDON ends its running scene. -/
theorem settle_endAwait_abandoned {k : Fin 4} {i : Running} {subject : Subject} {next : StepRecord} {sc : Scene}
    (h : AwaitsNext s k i subject next) (hs : s.scene? i.scene = some sc) (hab : sc.abandon = true)
    (ht : s.engine.trackRequester ≠ some ⟨k, s.engine.slots[k].mark⟩) (hn : NoRetake s sc) (hw : s.works = []) :
    ∃ p, State.settle 2 (s.endAwait subject .failed k) = some (freed { s with player := p } k) := by
  rw [endAwait_eq .failed h]
  generalize hu : s.setSlot k ⟨some { i with wait := .completed .failed }, s.engine.slots[k].mark⟩ = u
  have huk : u.engine.slots[k] = ⟨some { i with wait := .completed .failed }, s.engine.slots[k].mark⟩ := by
    rw [← hu, setSlot_same]
  have huw : u.works = [] := by rw [← hu]; exact hw
  have hus : u.scene? i.scene = some sc := by rw [← hu]; exact hs
  have hut : u.engine.trackRequester ≠ some ⟨k, u.engine.slots[k].mark⟩ := by rw [huk, ← hu]; exact ht
  have hun : NoRetake u sc := by rw [← hu]; exact hn
  have hrun : u.engine.slots[k].run = some { i with wait := .completed .failed } := by rw [huk]
  obtain ⟨p, -, hc⟩ := cancelSlot_other hrun (by decide : CancelReason.abandoned ≠ .halted) hut
  have hfree : ((freed { u with player := p } k).raise [.retake i.scene]).engine.slots[k].run = none := by
    show (State.setSlot _ k _).engine.slots[k].run = none
    rw [setSlot_same]
  have hfw : (freed { u with player := p } k).works = [] := huw
  refine ⟨p, ?_⟩
  have hsame : freed { u with player := p } k = freed { s with player := p } k := by
    unfold freed
    rw [show ({ u with player := p } : State).engine.slots[k] = _ from huk, ← hu]
    simp only [State.setSlot, Vector.set_set]
  rw [raise_of_none _ huw, settle_cons 1 rfl, withWorks_withWorks, List.append_nil, withWorks_self huw]
  have htake : u.take (.awaitDone k s.engine.slots[k].mark) =
      (freed { u with player := p } k).raise [.retake i.scene] := by
    show State.takeAwaitDone _ k _ = _
    rw [takeAwaitDone_completed huk]
    unfold State.completeAwait State.failStep
    rw [abandons_eq hrun hus, hab]
    show (State.cancelSlot u k .abandoned).raiseRun k = _
    rw [hc, if_pos rfl, raiseRun_free hfree]
  rw [htake, withWorks_self rfl, raise_of_none _ hfw, ← hsame]
  refine settle_one ?_ hfw
  rw [withWorks_self hfw]
  refine retake_unasked fun sc' hs' => ?_
  rw [show sc' = sc from Option.some.inj (hs'.symm.trans hus)]
  exact hun

/-! ## Everyone who waits on a subject -/

theorem endAwait_slot_other {subject : Subject} {out : AwaitOutcome} {j k : Fin 4} (h : j ≠ k) :
    (s.endAwait subject out k).engine.slots[j] = s.engine.slots[j] := by
  unfold State.endAwait
  split
  · split
    · exact setSlot_other _ h
    · rfl
  · rfl

theorem endAwaits_none {subject : Subject} (out : AwaitOutcome) :
    ∀ {l : List (Fin 4)} {s : State}, (∀ k ∈ l, s.engine.slots[k].awaits subject = false) →
      l.foldl (fun t k => t.endAwait subject out k) s = s
  | [], _, _ => rfl
  | k :: l, s, h => by
    rw [List.foldl_cons, endAwait_not out (h k List.mem_cons_self)]
    exact endAwaits_none out fun j hj => h j (List.mem_cons_of_mem _ hj)

/-- Of a list of slots, one alone waits on the subject. -/
theorem endAwaits_alone {subject : Subject} (out : AwaitOutcome) {k : Fin 4} :
    ∀ {l : List (Fin 4)}, l.Nodup → k ∈ l → (∀ j ∈ l, j ≠ k → s.engine.slots[j].awaits subject = false) →
      l.foldl (fun t j => t.endAwait subject out j) s = s.endAwait subject out k
  | [], _, hk, _ => absurd hk List.not_mem_nil
  | j :: l, hl, hk, h => by
    obtain ⟨hj, hl⟩ := List.nodup_cons.1 hl
    rw [List.foldl_cons]
    by_cases hjk : j = k
    · subst hjk
      refine endAwaits_none out fun m hm => ?_
      have hmj : m ≠ j := fun he => hj (he ▸ hm)
      rw [endAwait_slot_other hmj]
      exact h m (List.mem_cons_of_mem _ hm) hmj
    · rw [endAwait_not out (h j List.mem_cons_self hjk)]
      exact endAwaits_alone out hl ((List.mem_cons.1 hk).resolve_left fun he => hjk he.symm)
        fun m hm => h m (List.mem_cons_of_mem _ hm)

theorem AwaitsAlone.others {k : Fin 4} {i : Running} {subject : Subject} {next : StepRecord}
    (h : AwaitsAlone s k i subject next) {j : Fin 4} (hj : j ≠ k) : s.engine.slots[j].awaits subject = false :=
  Bool.eq_false_iff.2 fun hw => hj (h.alone j hw)

theorem completeAwaits_alone {k : Fin 4} {i : Running} {subject : Subject} {next : StepRecord} (out : AwaitOutcome)
    (h : AwaitsAlone s k i subject next) : s.completeAwaits subject out = s.endAwait subject out k :=
  endAwaits_alone out (List.nodup_finRange 4) (List.mem_finRange k) fun _ _ hj => h.others hj

end Sys2Proof.Machine
end

section
/-! How the end of a piece of work reaches the scenes (R19, R22): DONE for the slot that waits on it, or a failure. -/

namespace Sys2Proof.Machine

variable {s t u : State}

/-- The parts of the Scene Engine, the clock and the inputs that decide what an outcome makes of the slots are those of
another state; the track requester may have changed. -/
structure SameScenes (s u : State) : Prop where
  engine : ∃ r, u.engine = { s.engine with trackRequester := r }
  clock : u.now = s.now
  inputs : u.inputs = s.inputs
  works : u.works = []

namespace SameScenes

theorem slots (h : SameScenes s u) : u.engine.slots = s.engine.slots := by
  obtain ⟨r, hr⟩ := h.engine
  rw [hr]

theorem scene? (h : SameScenes s u) (n : Fin 64) : u.scene? n = s.scene? n := by
  obtain ⟨r, hr⟩ := h.engine
  unfold State.scene?
  rw [hr]

theorem nobodyAwaits (h : SameScenes s u) {subject : Subject} (hn : NobodyAwaits s subject) :
    NobodyAwaits u subject := fun k => by
  rw [h.slots]
  exact hn k

theorem awaitsNext (h : SameScenes s u) {k : Fin 4} {i : Running} {subject : Subject} {next : StepRecord}
    (ha : AwaitsNext s k i subject next) : AwaitsNext u k i subject next where
  run := by rw [h.slots]; exact ha.run
  wait := ha.wait
  step := by rw [h.scene?]; exact ha.step
  delay := ha.delay

theorem awaitsAlone (h : SameScenes s u) {k : Fin 4} {i : Running} {subject : Subject} {next : StepRecord}
    (ha : AwaitsAlone s k i subject next) : AwaitsAlone u k i subject next where
  next := h.awaitsNext ha.next
  alone m hm := ha.alone m (by rwa [h.slots] at hm)

theorem abandons (h : SameScenes s u) (k : Fin 4) : u.abandons k = s.abandons k := by
  unfold State.abandons
  simp only [h.slots, h.scene?]

theorem noRetake (h : SameScenes s u) {sc : Scene} (hn : NoRetake s sc) : NoRetake u sc := by
  unfold NoRetake
  rw [h.inputs]
  exact hn

theorem movedOn (h : SameScenes s u) (i : Running) (next : StepRecord) :
    movedOn u i next = Machine.movedOn s i next := by
  unfold Machine.movedOn
  rw [h.clock]

/-- A change of a slot leaves the same Scene Engine on both sides. -/
theorem setSlot_engine (h : SameScenes s u) (k : Fin 4) (r : Slot) :
    (u.setSlot k r).engine = { (s.setSlot k r).engine with trackRequester := u.engine.trackRequester } := by
  obtain ⟨q, hq⟩ := h.engine
  simp only [State.setSlot, hq]

theorem freed_engine (h : SameScenes s u) (k : Fin 4) :
    (freed u k).engine = { (freed s k).engine with trackRequester := u.engine.trackRequester } := by
  obtain ⟨q, hq⟩ := h.engine
  simp only [freed, State.setSlot, hq]

end SameScenes

/-- How an outcome ends: with a scene engine, and perhaps a player whose narration has been cancelled. -/
def EndsWith (s u : State) (engine : SceneEngine) : Prop :=
  ∃ n p, n ≤ 100 ∧ State.settle n u = some { s with engine := engine, player := p }

theorem event_endsWith {body : State → State} {engine : SceneEngine} (hb : body t = u) (h : EndsWith s u engine) :
    ∃ p, event body t = .next (State.announce { s with engine := engine, player := p }) := by
  obtain ⟨n, p, hn, hs⟩ := h
  exact ⟨p, event_ends hb hs (by omega)⟩

/-- R19: the end of a piece of work that has not failed reaches the slot that waits on it. -/
theorem completeAwaits_reaches {subject : Subject} {out : AwaitOutcome} (h : SameScenes s u) (ho : out ≠ .failed) :
    (NobodyAwaits s subject → State.settle 1 (u.completeAwaits subject out) = some u) ∧
    ∀ j i next, AwaitsAlone s j i subject next → State.settle 1 (u.completeAwaits subject out) =
      some (u.setSlot j ⟨some (movedOn s i next), s.engine.slots[j].mark⟩) := by
  refine ⟨fun hn => ?_, fun j i next ha => ?_⟩
  · rw [completeAwaits_none out (h.nobodyAwaits hn)]
    exact settle_done 1 h.works
  · have ha' := h.awaitsAlone ha
    rw [completeAwaits_alone out ha', settle_endAwait ha'.next (fun hf => absurd hf ho) h.works, h.movedOn,
      h.slots]

/-- A late outcome for the slot that asked for the work, where one did (R22). -/
def lateTo (u : State) (subject : Subject) (asker : Option Requester) : State :=
  match asker with
  | some r => u.lateOutcome subject r
  | none => u

/-- A late outcome that no running scene asked for, or whose scene waits on the work, raises nothing. -/
theorem lateTo_unheard {subject : Subject} {asker : Option Requester}
    (h : ∀ k, asker = some ⟨k, u.engine.slots[k].mark⟩ → u.engine.slots[k].run ≠ none →
      u.engine.slots[k].awaits subject = true) : lateTo u subject asker = u := by
  cases asker with
  | none => rfl
  | some r =>
    obtain ⟨hq, -⟩ | ⟨-, ⟨i, hi⟩, hw⟩ := lateOutcome_cases u subject r
    · exact hq
    · unfold State.instanceOf at hi
      split at hi
      · rename_i hm
        rw [h r.slot (by rw [hm]) (by rw [hi]; simp)] at hw
        cases hw
      · cases hi

theorem lateOutcome_raises {subject : Subject} {k : Fin 4} {i : Running} (hr : u.engine.slots[k].run = some i)
    (ha : u.engine.slots[k].awaits subject = false) :
    u.lateOutcome subject ⟨k, u.engine.slots[k].mark⟩ = u.raise [.lateFailure k u.engine.slots[k].mark] := by
  unfold State.lateOutcome State.instanceOf
  simp only [if_true, hr, ha]
  rfl

theorem takeLateFailure_continue {k : Fin 4} {mark : BitVec 8} (h : u.abandons k = false) :
    u.takeLateFailure k mark = u := by
  unfold State.takeLateFailure
  rw [h, Bool.and_false]
  rfl

theorem takeLateFailure_abandon {k : Fin 4} {i : Running} {sc : Scene} (hr : u.engine.slots[k].run = some i)
    (hs : u.scene? i.scene = some sc) (hab : sc.abandon = true) :
    u.takeLateFailure k u.engine.slots[k].mark = u.cancelSlot k .abandoned := by
  unfold State.takeLateFailure State.instanceOf
  rw [abandons_eq hr hs, hab, if_pos rfl, hr]
  rfl

/-- R22: a failure of work that nobody waits on, for its asker under CONTINUE. -/
theorem settle_lateTo_continue {subject : Subject} {asker : Option Requester}
    (h : ∀ k, asker = some ⟨k, u.engine.slots[k].mark⟩ → u.abandons k = false) (hn : NobodyAwaits u subject)
    (hw : u.works = []) : State.settle 1 (lateTo u subject asker) = some u := by
  by_cases hk : ∃ k i, asker = some ⟨k, u.engine.slots[k].mark⟩ ∧ u.engine.slots[k].run = some i
  · obtain ⟨k, i, hk, hr⟩ := hk
    rw [hk]
    show State.settle 1 (u.lateOutcome subject _) = _
    rw [lateOutcome_raises hr (hn k), raise_of_none _ hw]
    refine settle_one ?_ hw
    rw [withWorks_self hw]
    exact takeLateFailure_continue (h k hk)
  · rw [lateTo_unheard fun k ha hr => ?_]
    · exact settle_done 1 hw
    · obtain ⟨i, hi⟩ := Option.ne_none_iff_exists'.1 hr
      exact absurd ⟨k, i, ha, hi⟩ hk

/-- R22, R23: a failure of work that nobody waits on, for its asker under ABANDON. -/
theorem settle_lateTo_abandon {subject : Subject} {k : Fin 4} {i : Running} {sc : Scene}
    (hr : u.engine.slots[k].run = some i) (hs : u.scene? i.scene = some sc) (hab : sc.abandon = true)
    (ht : u.engine.trackRequester ≠ some ⟨k, u.engine.slots[k].mark⟩) (hn : NoRetake u sc)
    (ha : NobodyAwaits u subject) (hw : u.works = []) :
    ∃ p, State.settle 2 (lateTo u subject (some ⟨k, u.engine.slots[k].mark⟩)) =
      some (freed { u with player := p } k) := by
  obtain ⟨p, hp⟩ := settle_abandoned hr hs ht hn hw
  refine ⟨p, ?_⟩
  show State.settle 2 (u.lateOutcome subject _) = _
  have htake : u.take (.lateFailure k u.engine.slots[k].mark) = u.cancelSlot k .abandoned :=
    takeLateFailure_abandon hr hs hab
  rw [lateOutcome_raises hr (ha k), raise_of_none _ hw, settle_cons 1 rfl, withWorks_withWorks, withWorks_self hw,
    List.append_nil, htake, withWorks_self rfl]
  exact hp

/-- R19, R22: how the failure of a piece of work reaches the scenes, from a state that holds the scenes as they were: its
asker is told of it late, and every AWAIT on it fails. -/
theorem failureReaches {subject : Subject} {asker : Option Requester} {asked alone : Fin 4 → Prop}
    {leaves : SceneEngine → Prop} (h : SameScenes s u)
    (hasked : ∀ k, asker = some ⟨k, s.engine.slots[k].mark⟩ ↔ asked k)
    (halone : ∀ k, alone k → u.engine.trackRequester ≠ some ⟨k, s.engine.slots[k].mark⟩)
    (hl : ∀ engine : SceneEngine, engine.trackRequester = s.engine.trackRequester → EndsWith u ((lateTo u subject asker).completeAwaits subject .failed)
      { engine with trackRequester := u.engine.trackRequester } → leaves engine) :
    FailureReaches s subject asked alone leaves := by
  have hmark : ∀ k : Fin 4, u.engine.slots[k].mark = s.engine.slots[k].mark := fun k => by rw [h.slots]
  have hstill : ∀ engine : SceneEngine, engine = s.engine →
      { engine with trackRequester := u.engine.trackRequester } = u.engine := by
    rintro _ rfl
    obtain ⟨r, hr⟩ := h.engine
    rw [hr]
  have hnone : ∀ k : Fin 4, NobodyAwaits s subject →
      (lateTo u subject asker).completeAwaits subject .failed = lateTo u subject asker := fun _ hn => by
    refine completeAwaits_none _ fun j => ?_
    have hsl : (lateTo u subject asker).engine.slots = u.engine.slots := by
      unfold lateTo
      split
      · obtain ⟨hq, -⟩ | ⟨hq, -⟩ := lateOutcome_cases u subject _
        · rw [hq]
        · rw [hq]
          rfl
      · rfl
    rw [hsl, h.slots]
    exact hn j
  have hfailed : ∀ k i next sc, (failedOn s k i next sc).engine.trackRequester = s.engine.trackRequester := fun _ _ _ _ => by
    unfold failedOn
    split <;> rfl
  refine ⟨fun hn hc => hl _ rfl ⟨1, u.player, by decide, ?_⟩, fun k i sc hn hk hr hs hab ha hret => hl _ rfl ?_,
    fun j i next sc ha hs hk hab => hl _ (hfailed _ _ _ _) ?_⟩
  · rw [hnone 0 hn, settle_lateTo_continue (fun k hk => ?_) (h.nobodyAwaits hn) h.works, hstill _ rfl]
    rw [h.abandons]
    exact hc k ((hasked k).1 (by rw [← hmark]; exact hk))
  · obtain ⟨p, hp⟩ := settle_lateTo_abandon (subject := subject) (by rw [h.slots]; exact hr) (by rw [h.scene?]; exact hs)
      hab (by rw [hmark]; exact halone k ha) (h.noRetake hret) (h.nobodyAwaits hn) h.works
    refine ⟨2, p, by decide, ?_⟩
    rw [hnone 0 hn, (hasked k).2 hk, ← hmark, hp, ← h.freed_engine]
    rfl
  · have ha' := h.awaitsAlone ha
    have hquiet : lateTo u subject asker = u := lateTo_unheard fun k hk' _ => by
      rw [hk k ((hasked k).1 (by rw [← hmark]; exact hk'))]
      exact ha'.next.awaits
    rw [hquiet, completeAwaits_alone _ ha']
    unfold failedOn
    by_cases hb : sc.abandon = true
    · obtain ⟨halo, hret⟩ := hab hb
      obtain ⟨p, hp⟩ := settle_endAwait_abandoned ha'.next (by rw [h.scene?]; exact hs) hb
        (by rw [hmark]; exact halone j halo) (h.noRetake hret) h.works
      refine ⟨2, p, by decide, ?_⟩
      rw [if_pos hb, hp, ← h.freed_engine]
      rfl
    · refine ⟨1, u.player, by decide, ?_⟩
      rw [if_neg hb, settle_endAwait ha'.next (fun _ => ?_) h.works, ← h.setSlot_engine, h.movedOn, hmark]
      · rfl
      · rw [h.abandons, abandons_eq ha.next.run hs]
        exact Bool.eq_false_iff.2 hb

end Sys2Proof.Machine
end

section
/-! What the end of an event leaves alone: a recomputation that starts nothing (R63), and the announcement (R75). -/

namespace Sys2Proof.Machine

variable {s t u : State}

/-! ## Output levels -/

/-- The lamp records differ in their output levels at most. -/
def OutputsOnly (a b : Vector Lamp 12) : Prop := ∀ c : Fin 12, b[c] = { a[c] with output := b[c].output }

theorem OutputsOnly.refl (a : Vector Lamp 12) : OutputsOnly a a := fun _ => rfl

theorem OutputsOnly.trans {a b c : Vector Lamp 12} (h : OutputsOnly a b) (h' : OutputsOnly b c) : OutputsOnly a c :=
  fun i => by rw [h' i, h i]

theorem refreshOutputs_frame (s : State) :
    ∃ lamps, s.refreshOutputs = { s with lamps := lamps } ∧ OutputsOnly s.lamps lamps :=
  ⟨_, rfl, fun c => by simp⟩

theorem OutputsOnly.lampDemand {lamps : Vector Lamp 12} (h : OutputsOnly s.lamps lamps) (ht : t.lamps = lamps)
    (hs : t.settings = s.settings) : t.lampDemand = s.lampDemand := by
  unfold State.lampDemand
  refine congrArg List.sum (List.map_congr_left fun c _ => ?_)
  rw [hs, ht, h c]
  rfl

/-! ## Recomputation -/

/-- R50, R60, R63: the started demand and the lamp allowance are handed on, and the output levels follow. -/
theorem handLampAllowance_frame (s : State) :
    ∃ lamps share, s.handLampAllowance = { s with lamps := lamps, share := share } ∧ OutputsOnly s.lamps lamps ∧
      share.motorDemand = s.share.motorDemand ∧ share.startedDemand = s.startedDemand ∧
      share.lampDemand = s.share.lampDemand ∧ share.admissions = s.share.admissions := by
  generalize hd : s.startedDemand = demand
  obtain ⟨lamps, hl, ho⟩ := refreshOutputs_frame
    { s with share.startedDemand := demand, share.lampAllowance := s.share.allowance - demand }
  refine ⟨lamps, { s.share with startedDemand := demand, lampAllowance := s.share.allowance - demand }, ?_, ho, rfl, rfl, rfl,
    rfl⟩
  unfold State.handLampAllowance
  simp only [hd]
  exact hl

/-- R63: what a recomputation that starts nothing changes, and the demands it hands on. -/
theorem recompute_frame (h : NothingWaits s) :
    ∃ lamps share, s.recompute = { s with lamps := lamps, share := share, announceCheck := true } ∧
      OutputsOnly s.lamps lamps ∧ share.motorDemand = s.motorDemand ∧ share.startedDemand = s.startedDemand ∧
      share.lampDemand = s.lampDemand ∧ share.admissions = s.share.admissions := by
  obtain ⟨lamps, share, hl, ho, hm, hd, hlamp, ha⟩ := handLampAllowance_frame s.formAllowance
  rw [State.formAllowance_share] at hm hlamp ha
  rw [startedDemand_congr (State.formAllowance_settings s) (State.formAllowance_drives s) (State.formAllowance_track s)] at hd
  refine ⟨lamps, share, ?_, ?_, hm, hd, hlamp, ha⟩
  · rw [recompute_quiet h, hl]
    unfold State.formAllowance
    rfl
  · rwa [State.formAllowance_lamps] at ho

/-- R47, R49: what a change of a lamp record leads to, when no request waits. -/
theorem lampChanged_frame (h : NothingWaits s) :
    ∃ lamps share check, s.lampChanged = { s with lamps := lamps, share := share, announceCheck := check } ∧
      OutputsOnly s.lamps lamps ∧ share.lampDemand = s.lampDemand ∧ share.admissions = s.share.admissions := by
  unfold State.lampChanged
  split
  · rename_i hd
    obtain ⟨lamps, hl, ho⟩ := refreshOutputs_frame s
    exact ⟨lamps, s.share, s.announceCheck, hl, ho, hd.symm, rfl⟩
  · obtain ⟨lamps, share, hl, ho, -, -, hd, ha⟩ := recompute_frame h
    exact ⟨lamps, share, true, hl, ho, hd, ha⟩

/-! ## The announcement -/

@[simp] theorem announce_engine (s : State) : s.announce.engine = s.engine := by
  obtain ⟨la, q, held, fl, h, -⟩ := announce_frame s; rw [h]
@[simp] theorem announce_settings (s : State) : s.announce.settings = s.settings := by
  obtain ⟨la, q, held, fl, h, -⟩ := announce_frame s; rw [h]
@[simp] theorem announce_inputs (s : State) : s.announce.inputs = s.inputs := by
  obtain ⟨la, q, held, fl, h, -⟩ := announce_frame s; rw [h]
@[simp] theorem announce_lamps (s : State) : s.announce.lamps = s.lamps := by
  obtain ⟨la, q, held, fl, h, -⟩ := announce_frame s; rw [h]
@[simp] theorem announce_player (s : State) : s.announce.player = s.player := by
  obtain ⟨la, q, held, fl, h, -⟩ := announce_frame s; rw [h]
@[simp] theorem announce_drives (s : State) : s.announce.drives = s.drives := by
  obtain ⟨la, q, held, fl, h, -⟩ := announce_frame s; rw [h]
@[simp] theorem announce_track (s : State) : s.announce.track = s.track := by
  obtain ⟨la, q, held, fl, h, -⟩ := announce_frame s; rw [h]
@[simp] theorem announce_halt (s : State) : s.announce.halt = s.halt := by
  obtain ⟨la, q, held, fl, h, -⟩ := announce_frame s; rw [h]
@[simp] theorem announce_memory (s : State) : s.announce.memory = s.memory := by
  obtain ⟨la, q, held, fl, h, -⟩ := announce_frame s; rw [h]
@[simp] theorem announce_line_state (s : State) : s.announce.line.state = s.line.state := by
  obtain ⟨la, q, held, fl, h, -⟩ := announce_frame s; rw [h]
@[simp] theorem announce_line_muteTimer (s : State) : s.announce.line.muteTimer = s.line.muteTimer := by
  obtain ⟨la, q, held, fl, h, -⟩ := announce_frame s; rw [h]
@[simp] theorem announce_line_errors (s : State) : s.announce.line.errors = s.line.errors := by
  obtain ⟨la, q, held, fl, h, -⟩ := announce_frame s; rw [h]
@[simp] theorem announce_share_motorDemand (s : State) : s.announce.share.motorDemand = s.share.motorDemand := by
  obtain ⟨la, q, held, fl, h, -⟩ := announce_frame s; rw [h]
@[simp] theorem announce_share_startedDemand (s : State) : s.announce.share.startedDemand = s.share.startedDemand := by
  obtain ⟨la, q, held, fl, h, -⟩ := announce_frame s; rw [h]
@[simp] theorem announce_share_lampDemand (s : State) : s.announce.share.lampDemand = s.share.lampDemand := by
  obtain ⟨la, q, held, fl, h, -⟩ := announce_frame s; rw [h]
@[simp] theorem announce_share_admissions (s : State) : s.announce.share.admissions = s.share.admissions := by
  obtain ⟨la, q, held, fl, h, -⟩ := announce_frame s; rw [h]

@[simp] theorem announce_motorDemand (s : State) : s.announce.motorDemand = s.motorDemand :=
  motorDemand_congr (announce_settings s) (announce_drives s) (announce_track s)
@[simp] theorem announce_startedDemand (s : State) : s.announce.startedDemand = s.startedDemand :=
  startedDemand_congr (announce_settings s) (announce_drives s) (announce_track s)
@[simp] theorem announce_lampDemand (s : State) : s.announce.lampDemand = s.lampDemand :=
  (OutputsOnly.refl s.lamps).lampDemand (announce_lamps s) (announce_settings s)

/-- R138: an announcement leaves every frame but a LOAD in the transmit queue. -/
theorem mem_announce_queue {x : TxEntry} (h : x ∈ s.line.queue) (hx : x.isLoad = false) :
    x ∈ s.announce.line.queue := by
  obtain ⟨la, q, held, fl, ha, hq, -⟩ := announce_frame s
  rw [ha]
  exact hq x h hx

/-- R138: an announcement puts nothing but a LOAD into the transmit queue. -/
theorem of_mem_announce_queue {x : TxEntry} (h : x ∈ s.announce.line.queue) : x ∈ s.line.queue ∨ x.isLoad = true := by
  obtain ⟨la, q, held, fl, ha, -, hq, -⟩ := announce_frame s
  rw [ha] at h
  exact hq x h

/-! ## The newest fault record -/

/-- The newest record is of a kind and detail. -/
def NewestRecord (f : FaultList) (kind : FaultKind) (detail : Byte) : Prop :=
  ∃ older r, f.records = older ++ [r] ∧ r.kind = kind ∧ r.detail = detail

theorem newest_recordFault (s : State) (kind : FaultKind) (detail : Nat) :
    NewestRecord (s.recordFault kind detail).faults kind (BitVec.ofNat 8 detail) := by
  show ∃ older r, mergeFault s.faults.records kind (BitVec.ofNat 8 detail) s.showTime = older ++ [r] ∧ _
  unfold mergeFault
  split
  · split
    · rename_i h
      exact ⟨_, _, rfl, h.1, h.2⟩
    · exact ⟨_, _, rfl, rfl, rfl⟩
  · exact ⟨[], _, rfl, rfl, rfl⟩

theorem NewestRecord.mem {f : FaultList} {kind : FaultKind} {detail : Byte} (h : NewestRecord f kind detail) :
    ∃ r ∈ f.records, r.kind = kind ∧ r.detail = detail := by
  obtain ⟨older, r, hf, hr⟩ := h
  exact ⟨r, by rw [hf]; simp, hr⟩

/-- R153: the newest record stays when a fault of another kind is recorded. -/
theorem NewestRecord.mem_recordFault {kind other : FaultKind} {detail : Byte} (h : NewestRecord s.faults kind detail)
    (ho : kind ≠ other) (d : Nat) : ∃ r ∈ (s.recordFault other d).faults.records, r.kind = kind ∧ r.detail = detail := by
  obtain ⟨older, r, hf, hk, hd⟩ := h
  show ∃ x ∈ mergeFault s.faults.records other _ _, _
  have hne : ¬(r.kind = other ∧ r.detail = BitVec.ofNat 8 d) := fun hx => ho (hk.symm.trans hx.1)
  unfold mergeFault appendRecord
  rw [hf, List.getLast?_concat]
  simp only []
  rw [if_neg hne]
  refine ⟨r, List.mem_append_left _ ?_, hk, hd⟩
  split
  · simp
  · rename_i hlen
    cases older with
    | nil => simp at hlen
    | cons a older => simp

/-- A record made last outlives the announcement. -/
theorem NewestRecord.mem_announce {kind : FaultKind} {detail : Byte} (h : NewestRecord s.faults kind detail)
    (hk : kind ≠ .lineOverrun) : ∃ r ∈ s.announce.faults.records, r.kind = kind ∧ r.detail = detail := by
  obtain ⟨la, q, held, fl, ha, -, -, -, hf⟩ := announce_frame s
  rw [ha]
  rcases hf with rfl | rfl
  · exact h.mem
  · exact h.mem_recordFault hk 3

/-! ## Lamp fades (R44, R45) -/

theorem exec_fadeStep {c : Fin 12} (hr : Ready s) (hf : s.lamps[c].fading = true)
    (hd : s.lamps[c].begun + s.lamps[c].stepsDone + 1 ≤ s.now) :
    exec (.fadeStep c) s = event (fun t => t.takeFadeStep c) s := by
  show execFadeStep c s = _
  unfold execFadeStep State.fadeStepDue
  rw [inShow_of_ready hr, hf, if_pos]
  simpa using hd

theorem setLamp_same (c : Fin 12) (r : Lamp) : (s.setLamp c r).lamps[c] = r := Vector.getElem_set_self _

theorem setLamp_other {j c : Fin 12} (r : Lamp) (h : j ≠ c) : (s.setLamp c r).lamps[j] = s.lamps[j] :=
  Vector.getElem_set_ne c.isLt j.isLt fun hv => h (Fin.ext hv.symm)

/-- R44: after its last step a fade is at its target. -/
theorem fadeLevel_last {start target k : Nat} (h : 0 < k) : fadeLevel start target k k = target := by
  unfold fadeLevel
  rw [Int.mul_tdiv_cancel _ (by omega)]
  omega

/-- R44: the record after a step on the way. -/
theorem step_on {r : Lamp} (hf : r.fading = true) (h : r.stepsDone + 1 < r.steps) :
    r.step =
      { r with
        stepsDone := r.stepsDone + 1, programmed := fadeLevel r.fadeStart r.target (r.stepsDone + 1) r.steps } := by
  unfold Lamp.step
  rw [decide_eq_true h, ← hf]

/-- R44, R45: the record after the last step. -/
theorem step_last {r : Lamp} (h : r.stepsDone + 1 = r.steps) :
    r.step = { r with stepsDone := r.stepsDone + 1, programmed := r.target, fading := false } := by
  unfold Lamp.step
  rw [← h, fadeLevel_last (Nat.succ_pos _), decide_eq_false (Nat.lt_irrefl _)]

/-- Settles O28: a step on the way works the outputs out again; the last one hands the demand over and is reported. -/
theorem fadeTakesItsSteps : Obligations.FadeTakesItsSteps := by
  intro s c hr hf hd r k
  rw [exec_fadeStep hr hf hd]
  refine ⟨fun hk => ?_, ?_⟩
  · have hstep : (s.lamps[c].step).fading = true := decide_eq_true hk
    obtain ⟨lamps, hl, ho⟩ := refreshOutputs_frame (s.setLamp c s.lamps[c].step)
    have hb : s.takeFadeStep c = { s with lamps := lamps } := by
      unfold State.takeFadeStep
      exact (if_pos hstep).trans hl
    refine ⟨_, event_quiet hb ⟨hr.settled.noWorks, hr.settled.noCheck⟩, rfl, ?_, fun j hj => ?_⟩
    · have := ho c
      rwa [setLamp_same, step_on hf hk] at this
    · have := ho j
      rwa [setLamp_other _ hj] at this
  · intro ends hk hn
    have hstep : (s.lamps[c].step).fading = false :=
      decide_eq_false (Nat.not_lt.2 (Nat.le_of_eq hk.symm))
    have hq : NothingWaits (s.setLamp c s.lamps[c].step) := hn
    obtain ⟨lamps, share, check, hl, ho, hdem, -⟩ := lampChanged_frame hq
    generalize hu : { s.setLamp c s.lamps[c].step with lamps := lamps, share := share, announceCheck := check } = u
      at hl
    have hb : s.takeFadeStep c = u.completeAwaits (.fade c) .done := by
      unfold State.takeFadeStep
      simp only [hstep]
      rw [← hl]
      rfl
    have hs : SameScenes s u := by
      rw [← hu]
      exact ⟨⟨_, rfl⟩, rfl, rfl, hr.settled.noWorks⟩
    have facts {engine : SceneEngine} {n : Nat} (hn : n ≤ 100)
        (h : State.settle n (s.takeFadeStep c) = some { u with engine := engine }) : ends engine := by
      refine ⟨_, event_ends rfl h (by omega), ?_, fun j hj => ?_, ?_, ?_⟩
      · have := ho c
        rw [setLamp_same, step_last hk] at this
        rw [announce_lamps, ← hu]
        exact this
      · have := ho j
        rw [setLamp_other _ hj] at this
        rw [announce_lamps, ← hu]
        exact this
      · rw [announce_share_lampDemand, announce_lampDemand, ← hu]
        refine hdem.trans (Eq.symm ?_)
        exact ho.lampDemand rfl rfl
      · simp only [announce_engine, announce_drives, announce_track, announce_player, announce_inputs, ← hu]
        exact ⟨trivial, rfl, rfl, rfl, rfl⟩
    obtain ⟨hnone, halone⟩ := completeAwaits_reaches (subject := .fade c) hs (by decide : AwaitOutcome.done ≠ .failed)
    refine ⟨fun hno => facts (n := 1) (by decide) ?_, fun j i next ha => facts (n := 1) (by decide) ?_⟩
    · rw [hb, hnone hno, ← hu]
      rfl
    · rw [hb, halone j i next ha, ← hu]
      rfl

end Sys2Proof.Machine
end

section
/-! The ends of drive runs and of the track's work, and how they reach the scenes (R18, R19, R22). -/

namespace Sys2Proof.Machine

variable {s t u : State}

/-! ## Drives -/

theorem setDrive_same (d : Fin 4) (r : Drive) : (s.setDrive d r).drives[d] = r := Vector.getElem_set_self _

theorem setDrive_other {j d : Fin 4} (r : Drive) (h : j ≠ d) : (s.setDrive d r).drives[j] = s.drives[j] :=
  Vector.getElem_set_ne d.isLt j.isLt fun hv => h (Fin.ext hv.symm)

theorem exec_stillTimerExpiry {d : Fin 4} {e : Tick} (hr : Ready s) (hb : s.drives[d].braking = true)
    (ht : s.drives[d].stillTimer = some e) (he : e ≤ s.now)
    (hs : s.drives[d].state = .homing ∨ (s.drives[d].state = .moving ∧
      s.drives[d].position ≤ s.drives[d].target + s.settings.drives[d].tolerance ∧
      s.drives[d].target ≤ s.drives[d].position + s.settings.drives[d].tolerance)) :
    exec (.stillTimerExpiry d) s = event (fun t => t.driveArrives d) s := by
  show execStillTimerExpiry d s = _
  unfold execStillTimerExpiry State.atRest
  rw [inShow_of_ready hr, if_pos]
  rw [← Drive.inBand_iff] at hs
  simpa only [hb, ht, reached, decide_eq_true he, Bool.and_eq_true, Bool.or_eq_true, beq_iff_eq, true_and] using hs

/-- R107, R108: the record of a drive that has come to rest. -/
theorem arrived_eq (r : Drive) :
    r.arrived =
      { r with
        state := .idle, position := if decide (r.state = .homing) then 0 else r.position
        homed := decide (r.state = .homing) || r.homed, braking := false, stillTimer := none, stallTimer := none
        samples := [], blankingEnd := none, brakeUntil := none } := by
  unfold Drive.arrived Drive.offRun
  simp only [Bool.or_comm, decide_eq_true_eq]

/-- Settles O44: the drive's record, the recomputation without its watts, and the report. -/
theorem driveComesToRest : Obligations.DriveComesToRest := by
  intro s d e hr hb ht he hn
  dsimp only
  intro hs
  rw [exec_stillTimerExpiry hr hb ht he hs]
  have hq : NothingWaits (s.setDrive d s.drives[d].arrived) := hn
  obtain ⟨lamps, share, hrec, -, hm, hst, -⟩ := recompute_frame hq
  generalize hu : { s.setDrive d s.drives[d].arrived with lamps := lamps, share := share, announceCheck := true } = u
    at hrec
  have hbody : s.driveArrives d = u.completeAwaits (.drive d) .done := by rw [← hrec]; rfl
  have hsame : SameScenes s u := by
    rw [← hu]
    exact ⟨⟨_, rfl⟩, rfl, rfl, hr.settled.noWorks⟩
  have facts {engine : SceneEngine} (h : State.settle 1 (s.driveArrives d) = some { u with engine := engine }) :
      ∃ t, event (fun t => t.driveArrives d) s = .next t ∧ t.drives[d] = s.drives[d].arrived ∧
        (∀ j : Fin 4, j ≠ d → t.drives[j] = s.drives[j]) ∧ t.share.startedDemand = t.startedDemand ∧
        t.share.motorDemand = t.motorDemand ∧ t.engine = engine ∧ t.track = s.track ∧ t.player = s.player := by
    refine ⟨_, event_ends rfl h (by decide), ?_⟩
    simp only [announce_drives, announce_share_startedDemand, announce_startedDemand, announce_share_motorDemand,
      announce_motorDemand, announce_engine, announce_track, announce_player, ← hu]
    exact ⟨setDrive_same d _, fun j hj => setDrive_other _ hj, hst, hm, trivial, rfl, rfl⟩
  rw [← arrived_eq]
  obtain ⟨hnone, halone⟩ := completeAwaits_reaches (subject := .drive d) hsame (by decide : AwaitOutcome.done ≠ .failed)
  refine ⟨fun hno => facts ?_, fun j i next ha => facts ?_⟩
  · rw [hbody, hnone hno, ← hu]
    rfl
  · rw [hbody, halone j i next ha, ← hu]
    rfl

/-! ## The track's outcomes -/

/-- The state with the track requester's record cleared (R18). -/
def forgetRequester (s : State) : State := { s with engine.trackRequester := none }

theorem forgetRequester_motorDemand (s : State) : (forgetRequester s).motorDemand = s.motorDemand := rfl

theorem endAwait_forget (subject : Subject) (out : AwaitOutcome) (k : Fin 4) :
    forgetRequester (s.endAwait subject out k) = (forgetRequester s).endAwait subject out k := by
  cases hw : s.engine.slots[k].awaits subject with
  | false => rw [endAwait_not out hw, endAwait_not (s := forgetRequester s) out hw]
  | true =>
    cases hr : s.engine.slots[k].run with
    | none => simp only [Slot.awaits, hr, Bool.false_eq_true] at hw
    | some i =>
      rw [endAwait_awaits out hr hw, endAwait_awaits (s := forgetRequester s) out hr hw]
      rfl

theorem completeAwaits_forget (subject : Subject) (out : AwaitOutcome) :
    forgetRequester (s.completeAwaits subject out) = (forgetRequester s).completeAwaits subject out := by
  have h : ∀ (l : List (Fin 4)) (s : State), forgetRequester (l.foldl (fun t k => t.endAwait subject out k) s) =
      l.foldl (fun t k => t.endAwait subject out k) (forgetRequester s) := by
    intro l
    induction l with
    | nil => exact fun _ => rfl
    | cons k l ih => exact fun s => by rw [List.foldl_cons, List.foldl_cons, ih, endAwait_forget]
  exact h _ s

/-- R18: an outcome of the track reaches the scenes with the requester's record cleared. -/
theorem trackOutcome_eq (out : AwaitOutcome) : s.trackOutcome out = (forgetRequester s).completeAwaits .track out :=
  completeAwaits_forget .track out

theorem lateOutcome_forget (subject : Subject) (r : Requester) :
    forgetRequester (s.lateOutcome subject r) = (forgetRequester s).lateOutcome subject r := by
  unfold State.lateOutcome
  split
  · rename_i h
    exact (if_pos h).symm
  · rename_i h
    exact (if_neg h).symm

/-- R22: a failure of the track's work reaches its requester too. -/
theorem trackFailed_eq :
    s.trackFailed =
      (lateTo (forgetRequester s) .track s.engine.trackRequester).completeAwaits .track .failed := by
  unfold State.trackFailed lateTo
  cases s.engine.trackRequester with
  | none => exact trackOutcome_eq .failed
  | some r => exact (trackOutcome_eq .failed).trans (by rw [lateOutcome_forget])

/-! ## The ends of an ask and of a handover -/

/-- R121 to R123: what the end of an ask in HOLDING changes. -/
theorem endAsk_frame (h : NothingElseWaits s 3) :
    ∃ lamps share, s.endAsk =
        { s with
          track.state := .holding, track.peer := none, track.grantTimer := .stopped, track.retryTimer := none
          track.giveUpTimer := none, lamps := lamps, share := share, announceCheck := true } ∧
      share.motorDemand = s.endAsk.motorDemand ∧ share.admissions = s.share.admissions.filter fun e => e.drive != 3 := by
  have hq := nothingWaits_dropEntry
    (s := { s with
      track.state := .holding, track.peer := none, track.grantTimer := .stopped, track.retryTimer := none
      track.giveUpTimer := none }) (d := 3) h
  obtain ⟨lamps, share, hrec, -, hm, -, -, ha⟩ := recompute_frame hq
  refine ⟨lamps, share, hrec, hm.trans ?_, ha⟩
  refine (motorDemand_congr ?_ ?_ ?_).symm <;> unfold State.endAsk <;> rw [hrec]

/-- R117: what an order to stop changes: the segment does not run, and drive 3 alone may be touched. -/
theorem stopSegment_frame (s : State) :
    ∃ drives, s.stopSegment = { s with track.running := false, drives := drives } ∧
      (∀ j : Fin 4, j ≠ 3 → drives[j] = s.drives[j]) ∧ (s.track.running = false → drives = s.drives) ∧
      (s.track.running = true →
        drives[(3 : Fin 4)] =
          { s.drives[(3 : Fin 4)] with samples := [], blankingEnd := none, brakeUntil := some (s.now + 5) }) := by
  unfold State.stopSegment
  split
  · rename_i h
    exact ⟨_, rfl, fun j hj => setDrive_other _ hj, fun hn => absurd h (by rw [hn]; decide),
      fun _ => setDrive_same (s := s) 3 _⟩
  · rename_i h
    have h : s.track.running = false := by simpa using h
    exact ⟨s.drives, by rw [← h], fun _ _ => rfl, fun _ => rfl, fun hn => absurd hn (by rw [h]; decide)⟩

/-- R125, R127, R128: what the end of a handover changes. -/
theorem endHandover_frame (state : TrackState) (h : NothingElseWaits s 3) :
    ∃ drives lamps share, s.endHandover state =
        { s with
          track := endedTrack s.track state, drives := drives, lamps := lamps, share := share
          announceCheck := true } ∧
      share.motorDemand = (s.endHandover state).motorDemand ∧ (∀ j : Fin 4, j ≠ 3 → drives[j] = s.drives[j]) ∧
      (s.track.running = false → drives = s.drives) := by
  obtain ⟨drives, hstop, hother, hsame, -⟩ := stopSegment_frame s
  have hq := nothingWaits_dropEntry
    (s := { s.stopSegment with
      track.state := state, track.peer := none, track.grantTimer := .stopped, track.arriveSeen := false
      track.departSeen := false, track.settle := .stopped }) (d := 3) (by rw [hstop]; exact h)
  obtain ⟨lamps, share, hrec, -, hm, -⟩ := recompute_frame hq
  refine ⟨drives, lamps, share, ?_, hm.trans ?_, hother, hsame⟩
  · unfold State.endHandover
    rw [hrec, hstop]
    rfl
  · refine (motorDemand_congr ?_ ?_ ?_).symm <;> unfold State.endHandover <;> rw [hrec]

end Sys2Proof.Machine
end

section
/-! Requests and asks that are given up, and the timers of a handover (R68, R122, R125, R127). -/

namespace Sys2Proof.Machine

variable {s t u : State}

/-! ## Requests out of time -/

theorem exec_admissionTimeout {d : Fin 4} {e : AdmissionEntry} (hr : Ready s) (ha : s.share.admissions = [e])
    (hd : e.drive = d) (ht : e.entered + 500 ≤ s.now) (hk : e.kind ≠ .segmentStart) :
    exec (.admissionTimeout d) s = event (fun t => t.failAdmission e) s := by
  show execAdmissionTimeout d s = _
  unfold execAdmissionTimeout State.expiredEntry
  simp only [inShow_of_ready hr, ha, hd, if_true, List.find?_cons]
  have hx : (e.drive == d && e.kind != .segmentStart && decide (e.entered + 500 ≤ s.now)) = true := by
    simp [hd, hk, ht]
  rw [hd] at hx
  rw [hx]

/-- The slot that asked for a drive's request and still owns the drive (R22, R68). -/
theorem owningRequester_iff (d k : Fin 4) (mark : BitVec 8) :
    s.owningRequester d = some ⟨k, mark⟩ ↔
      s.drives[d].requester = some ⟨k, mark⟩ ∧ ∃ o, s.engine.driveOwners[d] = some o ∧ o.slot = k := by
  unfold State.owningRequester
  cases s.drives[d].requester with
  | none => simp only [reduceCtorEq, false_and]
  | some r =>
    cases s.engine.driveOwners[d] with
    | none => simp only [reduceCtorEq, false_and, exists_false, and_false]
    | some o =>
      simp only [Option.some.injEq, exists_eq_left']
      constructor
      · intro h
        split at h
        · rename_i ho
          cases h
          exact ⟨rfl, ho⟩
        · cases h
      · rintro ⟨rfl, ho⟩
        exact if_pos ho

theorem filter_only {d : Fin 4} {e : AdmissionEntry} (he : e.drive = d) :
    [e].filter (fun x => x.drive != d) = [] := by simp [he]

/-- Settles O36: a request leaves the list with a recomputation and NO_POWER, and its failure reaches the scenes. -/
theorem admissionTimeoutFails : Obligations.AdmissionTimeoutFails := by
  intro s d e hr ha hd ht
  have helse (d' : Fin 4) (h : e.drive = d') : NothingElseWaits s d' := .inr fun x hx => by
    rw [ha, List.mem_singleton] at hx
    rw [hx, h]
  constructor
  · intro hk _ asked alone
    rw [exec_admissionTimeout hr ha hd ht (by rw [hk]; decide)]
    have hq : NothingWaits ((s.setDrive d s.drives[d].unstarted).dropEntry d) :=
      nothingWaits_dropEntry (s := s.setDrive d s.drives[d].unstarted) (helse d hd)
    obtain ⟨lamps, share, hrec, -, hm, -, -, hadm⟩ := recompute_frame hq
    generalize hu : State.recordFault
      { (s.setDrive d s.drives[d].unstarted).dropEntry d with
        lamps := lamps, share := share, announceCheck := true } .noPower d.val = u
    have hbody : s.failAdmission e =
        (lateTo u (.drive d) (s.owningRequester d)).completeAwaits (.drive d) .failed := by
      unfold State.failAdmission
      rw [hk, hd, ← hu, ← hrec]
      rfl
    have hsame : SameScenes s u := by
      rw [← hu]
      exact ⟨⟨_, rfl⟩, rfl, rfl, hr.settled.noWorks⟩
    refine failureReaches (asker := s.owningRequester d) hsame (fun k => owningRequester_iff d k _)
      (fun k hk => by rw [← hu]; exact hk) fun engine htr hends => ?_
    obtain ⟨p, hnext⟩ := event_endsWith (body := fun t => t.failAdmission e) hbody hends
    refine ⟨_, hnext, ?_⟩
    rw [announce_share_admissions, announce_drives, announce_share_motorDemand, announce_motorDemand, announce_track,
      announce_engine]
    refine ⟨?_, ?_, ?_, NewestRecord.mem_announce ?_ (by decide), ?_, ?_⟩
    · rw [← hu]
      refine hadm.trans ?_
      show List.filter _ _ = []
      rw [show (s.setDrive d s.drives[d].unstarted).share.admissions = [e] from ha]
      exact filter_only hd
    · rw [← hu]
      exact setDrive_same d _
    · rw [← hu]
      exact hm
    · rw [← hu]
      exact newest_recordFault _ _ _
    · rw [← hu]
      rfl
    · rw [← hu]
      show { engine with trackRequester := s.engine.trackRequester } = engine
      rw [← htr]
  · intro hk h3 _ asked
    rw [exec_admissionTimeout hr ha hd ht (by rw [hk]; decide)]
    obtain ⟨lamps, share, hask, hm, hadm⟩ := endAsk_frame (helse 3 (hd.trans h3))
    generalize hu : forgetRequester (s.endAsk.recordFault .noPower 3) = u
    have hbody : s.failAdmission e =
        (lateTo u .track s.engine.trackRequester).completeAwaits .track .failed := by
      unfold State.failAdmission State.failSegmentRequest
      rw [hk, ← hu]
      refine trackFailed_eq.trans ?_
      rw [show (s.endAsk.recordFault .noPower 3).engine = s.engine by rw [hask]; rfl]
    have hsame : SameScenes s u := by
      rw [← hu, hask]
      exact ⟨⟨none, rfl⟩, rfl, rfl, hr.settled.noWorks⟩
    have hnone : u.engine.trackRequester = none := by rw [← hu]; rfl
    refine failureReaches (asker := s.engine.trackRequester) hsame (fun k => Iff.rfl)
      (fun k _ => by rw [hnone]; simp) fun engine _ hends => ?_
    obtain ⟨p, hnext⟩ := event_endsWith (body := fun t => t.failAdmission e) hbody hends
    refine ⟨_, hnext, ?_⟩
    rw [announce_share_admissions, announce_drives, announce_track, announce_engine, hnone]
    refine ⟨?_, ?_, ?_, NewestRecord.mem_announce (detail := 3) ?_ (by decide), ?_, rfl⟩
    · rw [← hu, hask]
      refine hadm.trans ?_
      rw [ha]
      exact filter_only (hd.trans h3)
    · rw [← hu, hask]
      rfl
    · rw [← hu, hask]
      rfl
    · rw [← hu]
      exact newest_recordFault _ _ _
    · rw [← hu, hask]
      rfl

end Sys2Proof.Machine
end

section
/-! The timers of an ask and of a handover (R122, R125, R127). -/

namespace Sys2Proof.Machine

variable {s t u : State}

/-! ## Asks -/

theorem isLoad_eq_false_of_isAsk {x : TxEntry} (h : x.isAsk = true) : x.isLoad = false := by
  unfold TxEntry.isAsk at h
  unfold TxEntry.isLoad
  rw [beq_iff_eq] at h
  rw [h]
  rfl

/-- R120: a release handed over to a queue with room. -/
theorem toPeer_room (outcome : ReleaseOutcome) (h : s.line.queue.length < 8) :
    s.toPeer outcome =
      s.setTxQueue (insertTx ⟨.blockRelease (s.track.peer.getD 0) outcome, s.now, false, 0⟩ s.line.queue) :=
  handOver_room (body := .blockRelease (s.track.peer.getD 0) outcome) (by simp [FrameBody.kind]) h

theorem retryClaim_idle (h : s.player.bounced = false) : s.retryClaim = s := by
  unfold State.retryClaim
  rw [h]
  rfl

/-- R140: whether a frame outlives the withdrawal of an exchange's BLOCK_ASK. -/
theorem mem_withdrawBlockAsk {x : TxEntry} :
    x ∈ s.withdrawBlockAsk.line.queue ↔
      x ∈ s.line.queue ∧ (x.isAsk = true → x.inTransmission = true ∨ x.claim ≠ s.track.exchange) := by
  unfold State.withdrawBlockAsk
  rw [setTxQueue_line_queue, List.mem_filter]
  refine and_congr_right fun _ => ?_
  cases x.isAsk <;> cases x.inTransmission <;> simp

theorem exec_retryTimerExpiry {e : Tick} (hr : Ready s) (ht : s.track.state = .askingAsked)
    (hx : s.track.retryTimer = some e) (he : e ≤ s.now) : exec .retryTimerExpiry s = event State.retryAsk s := by
  show execRetryTimerExpiry s = _
  unfold execRetryTimerExpiry State.retryDue State.asked
  rw [inShow_of_ready hr, ht, hx, if_pos]
  simpa [reached] using he

theorem exec_giveUpTimerExpiry {e : Tick} (hr : Ready s) (ht : s.track.state = .askingAsked)
    (hx : s.track.giveUpTimer = some e) (he : e ≤ s.now) : exec .giveUpTimerExpiry s = event State.giveUpAsk s := by
  show execGiveUpTimerExpiry s = _
  unfold execGiveUpTimerExpiry State.giveUpDue State.asked
  rw [inShow_of_ready hr, ht, hx, if_pos]
  simpa [reached] using he

/-- R122: the ask sent again, unless one waits. -/
theorem retryAsk_room (h : s.line.queue.length < 8) :
    s.retryAsk =
      { s with
        track.retryTimer := some (s.now + 100)
        line.queue :=
          if s.askWaiting then s.line.queue
          else
            insertTx ⟨.blockAsk (s.track.peer.getD 0) s.track.speedClass.val, s.now, false, s.track.exchange⟩
              s.line.queue } := by
  unfold State.retryAsk
  simp only []
  split
  · rfl
  · exact handOverFor_room (s := { s with track.retryTimer := some (s.now + 100) })
      (body := .blockAsk (s.track.peer.getD 0) s.track.speedClass.val) (by simp [FrameBody.kind]) h

/-- Settles O47: the give-up hands the release over, withdraws the ask, and ends it as a failure. -/
theorem askRetriesAndGivesUp : Obligations.AskRetriesAndGivesUp := by
  intro s peer e hr ht hp hq he
  constructor
  · intro hx
    rw [exec_retryTimerExpiry hr ht hx he]
    have hb := retryAsk_room hq
    rw [hp, Option.getD_some] at hb
    exact event_quiet hb ⟨hr.settled.noWorks, hr.settled.noCheck⟩
  · intro hx hn hbounce asked
    rw [exec_giveUpTimerExpiry hr ht hx he]
    have hrel := toPeer_room .cancel hq
    rw [hp, Option.getD_some] at hrel
    generalize hv : (s.toPeer .cancel).withdrawBlockAsk = v
    have hvq : ∀ x, x ∈ v.line.queue ↔ x ∈ insertTx ⟨.blockRelease peer .cancel, s.now, false, 0⟩ s.line.queue ∧
        (x.isAsk = true → x.inTransmission = true ∨ x.claim ≠ s.track.exchange) := fun x => by
      rw [← hv, mem_withdrawBlockAsk, hrel]
      rfl
    have hvs : v = s.setTxQueue v.line.queue := by rw [← hv, hrel]; rfl
    obtain ⟨lamps, share, hask, hm, -⟩ := endAsk_frame (s := v) (by rw [hvs]; exact hn)
    generalize hu : forgetRequester v.endAsk = u
    have hbody : State.giveUpAsk s = (lateTo u .track s.engine.trackRequester).completeAwaits .track .failed := by
      unfold State.giveUpAsk
      rw [hv, retryClaim_idle (by rw [hvs]; exact hbounce), ← hu]
      refine trackFailed_eq.trans ?_
      rw [show v.endAsk.engine = s.engine by rw [hask, hvs]; rfl]
    have hsame : SameScenes s u := by
      rw [← hu, hask, hvs]
      exact ⟨⟨none, rfl⟩, rfl, rfl, hr.settled.noWorks⟩
    have hnone : u.engine.trackRequester = none := by rw [← hu]; rfl
    have huq : u.line.queue = v.line.queue := by rw [← hu, hask]; rfl
    refine failureReaches (asker := s.engine.trackRequester) hsame (fun k => Iff.rfl)
      (fun k _ => by rw [hnone]; simp) fun engine _ hends => ?_
    obtain ⟨p, hnext⟩ := event_endsWith (body := State.giveUpAsk) hbody hends
    refine ⟨_, hnext, ?_, ?_, ?_, ?_, ?_, ?_, ?_⟩
    · rw [announce_track, ← hu, hask, hvs]
      rfl
    · refine ⟨_, mem_announce_queue (x := ⟨.blockRelease peer .cancel, s.now, false, 0⟩) ?_ rfl, rfl⟩
      exact huq ▸ (hvq _).2 ⟨mem_insertTx _ _, fun h => by cases h⟩
    · intro x hx' hxa
      rcases of_mem_announce_queue hx' with hx' | hx'
      · exact ((hvq x).1 (huq ▸ hx')).2 hxa
      · rw [isLoad_eq_false_of_isAsk hxa] at hx'
        cases hx'
    · intro x hx' hxa hkeep
      refine mem_announce_queue ?_ (isLoad_eq_false_of_isAsk hxa)
      exact huq ▸ (hvq x).2 ⟨mem_insertTx_of_mem hx', fun _ => hkeep⟩
    · rw [announce_share_motorDemand, announce_motorDemand, ← hu]
      refine (show v.endAsk.share.motorDemand = share.motorDemand by rw [hask]).trans hm
    · rw [announce_engine, hnone]
    · rw [announce_drives, ← hu, hask, hvs]
      rfl

/-! ## Handovers -/

theorem exec_grantTimerExpiry {e : Tick} (hr : Ready s) (ht : s.track.state = .sending ∨ s.track.state = .receiving)
    (hx : s.track.grantTimer = .expiring e) (he : e ≤ s.now) :
    exec .grantTimerExpiry s = event State.trackLost s := by
  show execGrantTimerExpiry s = _
  unfold execGrantTimerExpiry State.grantDue State.inHandover HaltTimer.due
  rw [inShow_of_ready hr, hx, if_pos]
  simpa [he] using ht

theorem exec_settleEnd {e : Tick} (hr : Ready s) (ht : s.track.state = .receiving)
    (hx : s.track.settle = .expiring e) (he : e ≤ s.now) : exec .settleEnd s = event State.receiveComplete s := by
  show execSettleEnd s = _
  unfold execSettleEnd State.settleDue HaltTimer.due
  rw [inShow_of_ready hr, ht, hx, if_pos]
  simpa using he

/-- R125: a lost or faulted handover tells the peer, when the block was sending. -/
theorem failedRelease_frame (h : s.line.queue.length < 8) :
    ∃ q, (if s.track.state = .sending then s.toPeer .failed else s) = s.setTxQueue q ∧
      (s.track.state = .sending → ∃ x ∈ q, x.body = .blockRelease (s.track.peer.getD 0) .failed ∧ x.isLoad = false) := by
  split
  · exact ⟨_, toPeer_room .failed h, fun _ => ⟨_, mem_insertTx _ _, rfl, rfl⟩⟩
  · rename_i hs
    exact ⟨s.line.queue, rfl, fun h => absurd h hs⟩

/-- Settles O48: both end the handover, with a failure and with DONE. -/
theorem grantAndSettleEnd : Obligations.GrantAndSettleEnd := by
  intro s peer e hr hp hq he hn
  constructor
  · intro hst hx
    rw [exec_grantTimerExpiry hr hst hx he]
    obtain ⟨q, hrel, hmem⟩ := failedRelease_frame hq
    rw [hp, Option.getD_some] at hmem
    generalize hv : (s.setTxQueue q).recordFault .trackLost peer = v
    obtain ⟨drives, lamps, share, hend, hm, -⟩ := endHandover_frame (s := v) .faulted (by rw [← hv]; exact hn)
    generalize hu : forgetRequester (v.endHandover .faulted) = u
    have hbody : State.trackLost s = (lateTo u .track none).completeAwaits .track .failed := by
      unfold State.trackLost
      simp only []
      rw [hrel, hp, Option.getD_some, hv]
      exact (trackOutcome_eq .failed).trans (by rw [hu]; rfl)
    have hsame : SameScenes s u := by
      rw [← hu, hend, ← hv]
      exact ⟨⟨none, rfl⟩, rfl, rfl, hr.settled.noWorks⟩
    have hnone : u.engine.trackRequester = none := by rw [← hu]; rfl
    refine failureReaches (asker := none) hsame (fun k => by simp) (fun k _ => by rw [hnone]; simp)
      fun engine _ hends => ?_
    obtain ⟨p, hnext⟩ := event_endsWith (body := State.trackLost) hbody hends
    refine ⟨_, hnext, ?_, NewestRecord.mem_announce ?_ (by decide), ?_, ?_, ?_⟩
    · rw [announce_track, ← hu, hend, ← hv]
      rfl
    · rw [← hu, hend, ← hv]
      exact newest_recordFault _ _ _
    · intro hs
      obtain ⟨x, hx, hb, hl⟩ := hmem hs
      refine ⟨x, mem_announce_queue ?_ hl, hb⟩
      rw [← hu, hend, ← hv]
      exact hx
    · rw [announce_share_motorDemand, announce_motorDemand, ← hu]
      exact (show (v.endHandover .faulted).share.motorDemand = share.motorDemand by rw [hend]).trans hm
    · rw [announce_engine, hnone]
  · intro hst hx completes
    obtain ⟨drives, lamps, share, hend, hm, -⟩ := endHandover_frame (s := s) .holding hn
    generalize hu : forgetRequester (s.endHandover .holding) = u
    have hbody : State.receiveComplete s = u.completeAwaits .track .done := by
      rw [← hu]
      exact trackOutcome_eq .done
    have hsame : SameScenes s u := by
      rw [← hu, hend]
      exact ⟨⟨none, rfl⟩, rfl, rfl, hr.settled.noWorks⟩
    have hnone : u.engine.trackRequester = none := by rw [← hu]; rfl
    have facts {engine : SceneEngine}
        (h : State.settle 1 (State.receiveComplete s) =
          some { u with engine := { engine with trackRequester := none } }) : completes engine := by
      refine ⟨_, (exec_settleEnd hr hst hx he).trans (event_ends rfl h (by decide)), ?_, ?_, announce_engine _⟩
      · rw [announce_track, ← hu, hend]
        rfl
      · rw [announce_share_motorDemand, announce_motorDemand, ← hu]
        exact (show (s.endHandover .holding).share.motorDemand = share.motorDemand by rw [hend]).trans hm
    obtain ⟨hnobody, halone⟩ :=
      completeAwaits_reaches (subject := .track) hsame (by decide : AwaitOutcome.done ≠ .failed)
    refine ⟨fun hno => facts ?_, fun j i next ha => facts ?_⟩
    · rw [hbody, hnobody hno, ← hu, hend]
      rfl
    · rw [hbody, halone j i next ha, ← hu, hend]
      rfl

end Sys2Proof.Machine
end

section
/-! Faults of drives and of the segment (R111, R112, R114, R117). -/

namespace Sys2Proof.Machine

variable {s t u : State}

/-! ## Records that others leave -/

theorem mem_mergeFault {records : List FaultRecord} {kind : FaultKind} {detail : Byte} {time : BitVec 32}
    {x : FaultRecord} (h : x ∈ mergeFault records kind detail time) : x ∈ records ∨ x.kind = kind := by
  unfold mergeFault appendRecord at h
  split at h
  · split at h
    · rename_i hr
      rcases List.mem_append.1 h with h | h
      · exact .inl (List.mem_of_mem_dropLast h)
      · exact .inr (List.mem_singleton.1 h ▸ hr.1)
    · rcases List.mem_append.1 h with h | h
      · split at h
        · exact .inl h
        · exact .inl (List.mem_of_mem_tail h)
      · exact .inr (List.mem_singleton.1 h ▸ rfl)
  · exact .inr (List.mem_singleton.1 h ▸ rfl)

theorem of_mem_recordFault {kind : FaultKind} {detail : Nat} {x : FaultRecord}
    (h : x ∈ (s.recordFault kind detail).faults.records) : x ∈ s.faults.records ∨ x.kind = kind := mem_mergeFault h

theorem of_mem_announce_faults {x : FaultRecord} (h : x ∈ s.announce.faults.records) :
    x ∈ s.faults.records ∨ x.kind = .lineOverrun := by
  obtain ⟨la, q, held, fl, ha, -, -, -, hf⟩ := announce_frame s
  rw [ha] at h
  rcases hf with rfl | rfl
  · exact .inl h
  · exact of_mem_recordFault h

/-! ## A drive's fault -/

/-- R114: what the fault of a running drive does before it is reported. -/
theorem driveFault_running {d : Fin 4} (kind : FaultKind)
    (hs : s.drives[d].state = .moving ∨ s.drives[d].state = .homing) (hn : NothingElseWaits s d) :
    ∃ lamps share,
      s.driveFault d kind =
        (State.recordFault
          { s.setDrive d (faultedDrive s.drives[d]) with lamps := lamps, share := share, announceCheck := true } kind
          d.val).completeAwaits (.drive d) .failed ∧
      share.motorDemand = (s.setDrive d (faultedDrive s.drives[d])).motorDemand ∧
      ∀ e ∈ share.admissions, e.drive ≠ d := by
  have hq : NothingWaits ((s.setDrive d (faultedDrive s.drives[d])).dropEntry d) :=
    nothingWaits_dropEntry (s := s.setDrive d (faultedDrive s.drives[d])) hn
  obtain ⟨lamps, share, hrec, -, hm, -, -, hadm⟩ := recompute_frame hq
  refine ⟨lamps, share, ?_, hm, fun e he => ?_⟩
  · have hc : s.claims d = true := by
      unfold State.claims
      rcases hs with hs | hs <;> simp only [hs]
    have hf : ¬s.drives[d].state = .faulted := by
      rcases hs with hs | hs <;> rw [hs] <;> decide
    unfold State.driveFault
    simp only [hf, if_false, hc, if_true]
    exact congrArg (fun x : State => (x.recordFault kind d.val).completeAwaits (.drive d) .failed) hrec
  · rw [hadm] at he
    simpa using (List.mem_filter.1 he).2

/-- R114: how the fault of a running drive reaches the scenes, and what it leaves of the drive and the demands. -/
theorem driveFault_reaches {c : Instr} {d : Fin 4} {kind : FaultKind} {r : Drive} (hr : Ready s)
    (hk : kind ≠ .lineOverrun) (ht : r.state = .moving ∨ r.state = .homing) (hn : NothingElseWaits s d)
    (hc : exec c s = event (fun _ => (s.setDrive d r).driveFault d kind) s) :
    FailureReaches s (.drive d) (fun _ => False)
      (fun k => s.engine.trackRequester ≠ some ⟨k, s.engine.slots[k].mark⟩) fun engine =>
      ∃ t, exec c s = .next t ∧
        (t.drives[d] = faultedDrive r ∧ (∀ j : Fin 4, j ≠ d → t.drives[j] = s.drives[j]) ∧
          (∀ e ∈ t.share.admissions, e.drive ≠ d) ∧ t.share.motorDemand = t.motorDemand ∧
          ∃ x ∈ t.faults.records, x.kind = kind ∧ x.detail = BitVec.ofNat 8 d.val) ∧ t.engine = engine := by
  obtain ⟨lamps, share, hbody, hm, hadm⟩ := driveFault_running (s := s.setDrive d r) kind
    (by rw [setDrive_same]; exact ht) hn
  rw [setDrive_same] at hbody hm
  generalize hu : State.recordFault _ kind d.val = u at hbody
  have hdrives : u.drives = ((s.setDrive d r).setDrive d (faultedDrive r)).drives := by rw [← hu]; rfl
  have hsame : SameScenes s u := by
    rw [← hu]
    exact ⟨⟨_, rfl⟩, rfl, rfl, hr.settled.noWorks⟩
  refine failureReaches (asker := none) hsame (fun k => by simp) (fun k hk => by rw [← hu]; exact hk)
    fun engine htr hends => ?_
  obtain ⟨p, hnext⟩ := event_endsWith (t := s) (body := fun _ => (s.setDrive d r).driveFault d kind) hbody hends
  refine ⟨_, hc.trans hnext, ⟨?_, fun j hj => ?_, ?_, ?_, NewestRecord.mem_announce ?_ hk⟩, ?_⟩
  · rw [announce_drives]
    show u.drives[d] = _
    rw [hdrives]
    exact setDrive_same d _
  · rw [announce_drives]
    show u.drives[j] = _
    rw [hdrives]
    exact (setDrive_other _ hj).trans (setDrive_other _ hj)
  · rw [announce_share_admissions, ← hu]
    exact hadm
  · rw [announce_share_motorDemand, announce_motorDemand, ← hu]
    exact hm
  · rw [← hu]
    exact newest_recordFault _ _ _
  · rw [announce_engine, ← hu]
    show { engine with trackRequester := s.engine.trackRequester } = engine
    rw [← htr]

theorem exec_stallTimerExpiry {d : Fin 4} {e : Tick} (hr : Ready s)
    (hs : (s.drives[d].state = .moving ∨ s.drives[d].state = .homing) ∧ s.drives[d].braking = false)
    (ht : s.drives[d].stallTimer = some e) (he : e ≤ s.now) :
    exec (.stallTimerExpiry d) s = event (fun t => t.driveFault d .stall) s := by
  show execStallTimerExpiry d s = _
  unfold execStallTimerExpiry State.stallDue
  rw [inShow_of_ready hr, (driving_iff s d).2 (.inl ⟨hs.1.symm, hs.2⟩), ht, if_pos]
  simpa [reached] using he

/-! ## Current samples -/

theorem driving_or_segment {d : Fin 4}
    (hs : ((s.drives[d].state = .moving ∨ s.drives[d].state = .homing) ∧ s.drives[d].braking = false) ∨
      (s.drives[d].state = .track ∧ s.track.running = true)) : s.driving d = true :=
  (driving_iff s d).2 (hs.imp (fun h => ⟨h.1.symm, h.2⟩) id)

theorem exec_currentSample {d : Fin 4} (code : BitVec 10) (hr : Ready s) (hd : s.driving d = true)
    (hb : ∀ e, s.drives[d].blankingEnd = some e → e ≤ s.clockMs) :
    exec (.currentSample d code) s = event (fun t => t.takeSample d code.toNat) s := by
  show execCurrentSample d code s = _
  have hover : s.blankingOver d = true := by
    unfold State.blankingOver
    split
    · rename_i e he
      exact decide_eq_true (hb e he)
    · rfl
  unfold execCurrentSample
  rw [inShow_of_ready hr, hd, hover]
  rfl

theorem exec_currentSample_blanked {d : Fin 4} {e : Nat} (code : BitVec 10) (hb : s.drives[d].blankingEnd = some e)
    (he : s.clockMs < e) : exec (.currentSample d code) s = .next s := by
  show execCurrentSample d code s = _
  have hover : s.blankingOver d = false := by
    unfold State.blankingOver
    rw [hb]
    exact decide_eq_false (Nat.not_le.2 he)
  unfold execCurrentSample
  rw [hover, Bool.and_false]
  rfl

/-- R112: whether the kept samples are three above the limit. -/
def Tripped (s : State) (d : Fin 4) (code : Nat) : Prop :=
  (keepSample s.drives[d].samples code).length = 3 ∧
    ∀ x ∈ keepSample s.drives[d].samples code, s.settings.drives[d].currentLimit < x

/-- R112: the drive with one more sample kept. -/
def sampledDrive (r : Drive) (code : Nat) : Drive := { r with samples := keepSample r.samples code }

theorem takeSample_kept {d : Fin 4} {code : Nat} (h : ¬Tripped s d code) :
    s.takeSample d code = s.setDrive d (sampledDrive s.drives[d] code) := by
  refine if_neg fun hx => h ⟨hx.1, ?_⟩
  simpa using hx.2

theorem takeSample_tripped {d : Fin 4} {code : Nat} (h : Tripped s d code) :
    s.takeSample d code =
      if s.drives[d].state = .track then
        (s.setDrive d (sampledDrive s.drives[d] code)).segmentOvercurrent
      else
        (s.setDrive d (sampledDrive s.drives[d] code)).driveFault d .overcurrent :=
  if_pos ⟨h.1, by simpa using h.2⟩

/-! ## The segment's overcurrent -/

/-- R117, R125, R127: what the track block does with an overcurrent of its stopped segment, when no scene waits on it. -/
theorem trackOvercurrent_frame (ha : NobodyAwaits s .track) (hn : NothingElseWaits s 3)
    (hq : s.line.queue.length < 8) (hrun : s.track.running = false) :
    ∃ q lamps share, s.trackOvercurrent =
        { s with
          line.queue := q, engine.trackRequester := none, track := endedTrack s.track .faulted, lamps := lamps
          share := share, announceCheck := true } ∧
      share.motorDemand = s.trackOvercurrent.motorDemand ∧
      (s.track.state = .sending →
        ∃ x ∈ q, x.body = .blockRelease (s.track.peer.getD 0) .failed ∧ x.isLoad = false) := by
  obtain ⟨q, hrel, hmem⟩ := failedRelease_frame hq
  obtain ⟨drives, lamps, share, hend, hm, -, hstill⟩ := endHandover_frame (s := s.setTxQueue q) .faulted hn
  obtain rfl : drives = s.drives := hstill hrun
  have hbody : s.trackOvercurrent = forgetRequester ((s.setTxQueue q).endHandover .faulted) := by
    unfold State.trackOvercurrent
    dsimp only
    rw [hrel]
    refine (trackOutcome_eq .failed).trans (completeAwaits_none .failed ?_)
    rw [hend]
    exact ha
  refine ⟨q, lamps, share, ?_, ?_, hmem⟩
  · rw [hbody, hend]
    rfl
  · rw [hbody]
    exact hm

/-- R117, R125, R127: what the segment's overcurrent leaves, when no scene waits on the track. -/
theorem segmentOvercurrent_next {c : Instr} {r : Drive} (hr : Ready s) (ha : NobodyAwaits s .track)
    (hn : NothingElseWaits s 3) (hq : s.line.queue.length < 8)
    (hc : exec c s = event (fun _ => (s.setDrive 3 r).segmentOvercurrent) s) :
    ∃ t, exec c s = .next t ∧ t.track = endedTrack s.track .faulted ∧ t.drives[(3 : Fin 4)] = r.offRun ∧
      t.share.motorDemand = t.motorDemand ∧ t.engine.trackRequester = none ∧
      (∃ x ∈ t.faults.records, x.kind = .overcurrent ∧ x.detail = 3) ∧
      (∀ x ∈ t.faults.records, x.kind = .trackLost → x ∈ s.faults.records) ∧
      (s.track.state = .sending → ∃ x ∈ t.line.queue, x.body = .blockRelease (s.track.peer.getD 0) .failed) := by
  generalize hv : State.setDrive { s.setDrive 3 r with track.running := false } 3 r.offRun = v
  have hframe : ∃ drives, v = { s with track.running := false, drives := drives } ∧ drives[(3 : Fin 4)] = r.offRun :=
    ⟨v.drives, by rw [← hv]; rfl, by rw [← hv]; exact setDrive_same _ _⟩
  obtain ⟨drives, hv', hdrive⟩ := hframe
  obtain ⟨q, lamps, share, hover, hm, hmem⟩ :=
    trackOvercurrent_frame (s := v.recordFault .overcurrent 3) (by rw [hv']; exact ha) (by rw [hv']; exact hn)
      (by rw [hv']; exact hq) (by rw [hv']; rfl)
  have hbody : (s.setDrive 3 r).segmentOvercurrent = (v.recordFault .overcurrent 3).trackOvercurrent := by
    unfold State.segmentOvercurrent
    dsimp only
    rw [setDrive_same (s := s) 3 r, hv]
  rw [hover] at hm
  generalize hu : (v.recordFault .overcurrent 3).trackOvercurrent = u at hover hbody
  have hfaults : u.faults = (s.recordFault .overcurrent 3).faults := by rw [hover, hv']; rfl
  have hw : u.works = [] := by rw [hover, hv']; exact hr.settled.noWorks
  refine ⟨_, hc.trans (event_ends (body := fun _ => (s.setDrive 3 r).segmentOvercurrent) hbody (settle_done 0 hw)
    (by decide)), ?_, ?_, ?_, ?_, NewestRecord.mem_announce (detail := 3) ?_ (by decide), fun x hx hk => ?_,
    fun hs => ?_⟩
  · rw [announce_track, hover, hv']
    rfl
  · rw [announce_drives, hover, hv']
    exact hdrive
  · rw [announce_share_motorDemand, announce_motorDemand, hover]
    exact hm
  · rw [announce_engine, hover]
  · rw [hfaults]
    exact newest_recordFault _ _ _
  · rcases of_mem_announce_faults hx with hx | hx
    · rw [hfaults] at hx
      rcases of_mem_recordFault hx with hx | hx
      · exact hx
      · rw [hx] at hk
        cases hk
    · rw [hx] at hk
      cases hk
  · obtain ⟨x, hx, hb, hl⟩ := hmem (by rw [hv']; exact hs)
    refine ⟨x, mem_announce_queue ?_ hl, ?_⟩
    · rw [hover]
      exact hx
    · rw [hb, hv']
      rfl

theorem event_congr {body body' : State → State} (h : body s = body' s) : event body s = event body' s := by
  unfold event
  rw [h]

/-- Settles O45: a stall and an overcurrent are faults of the drive; the segment's overcurrent ends the handover. -/
theorem driveFaultsStopIt : Obligations.DriveFaultsStopIt := by
  intro s d code hr
  dsimp only
  refine ⟨fun e hs ht he hn => ?_, fun e _ hb he => exec_currentSample_blanked code hb he, fun hs hb => ⟨fun hk => ?_,
    fun hk hs' ha hn => ?_, fun hk hs' hd _ ha hn hq => ?_⟩⟩
  · have hc : exec (.stallTimerExpiry d) s =
        event (fun _ => (s.setDrive d s.drives[d]).driveFault d .stall) s := by
      rw [exec_stallTimerExpiry hr hs ht he]
      have : s.setDrive d s.drives[d] = s := by simp [State.setDrive]
      rw [this]
      rfl
    obtain ⟨hnone, -, halone⟩ := driveFault_reaches hr (by decide) hs.1 hn hc
    refine ⟨fun ha => hnone ha fun _ hf => hf.elim, fun j i next sc ha hsc => ⟨fun hab => ?_, fun hab htr _ hret => ?_⟩⟩
    · have := halone j i next sc ha hsc (fun _ hf => hf.elim) fun hx => by rw [hab] at hx; cases hx
      unfold failedOn at this
      rwa [hab] at this
    · have := halone j i next sc ha hsc (fun _ hf => hf.elim) fun _ => ⟨htr, hret⟩
      unfold failedOn at this
      rwa [hab] at this
  · rw [exec_currentSample code hr (driving_or_segment hs) hb]
    exact event_quiet (takeSample_kept hk) ⟨hr.settled.noWorks, hr.settled.noCheck⟩
  · have hne : ¬s.drives[d].state = .track := by rcases hs'.1 with h | h <;> rw [h] <;> decide
    have hc : exec (.currentSample d code) s =
        event (fun _ => (s.setDrive d (sampledDrive s.drives[d] code.toNat)).driveFault d .overcurrent) s := by
      rw [exec_currentSample code hr (driving_or_segment hs) hb]
      exact event_congr ((takeSample_tripped hk).trans (if_neg hne))
    obtain ⟨hnone, -⟩ := driveFault_reaches (r := sampledDrive s.drives[d] code.toNat) (kind := .overcurrent) hr (by decide) hs'.1 hn hc
    obtain ⟨t, ht, hf, -⟩ := hnone ha fun _ hf => hf.elim
    exact ⟨t, ht, hf⟩
  · subst hd
    have hc : exec (.currentSample 3 code) s =
        event (fun _ => (s.setDrive 3 (sampledDrive s.drives[(3 : Fin 4)] code.toNat)).segmentOvercurrent) s := by
      rw [exec_currentSample code hr (driving_or_segment hs) hb]
      exact event_congr ((takeSample_tripped hk).trans (if_pos hs'.1))
    obtain ⟨t, ht, htrack, hdrive, hrest⟩ := segmentOvercurrent_next hr ha hn hq hc
    exact ⟨t, ht, htrack, hdrive, hrest⟩

end Sys2Proof.Machine
end

section
/-! Steps (R8, R9, R22): what a step deadline does when one step is issued and the next has a delay. -/

namespace Sys2Proof.Machine

variable {s t u : State}

/-! ## The step that is due -/

theorem stepDue_eq {k : Fin 4} {i : Running} {e : Tick} {sc : Scene} {r : StepRecord}
    (hr : s.engine.slots[k].run = some i) (hw : i.wait = .delaying e) (he : e ≤ s.now)
    (hs : s.scene? i.scene = some sc) (hst : sc.steps[i.stepIndex]? = some r) : s.stepDue k = some (i, r) := by
  unfold State.stepDue
  simp only [hr, hw, he, if_true, hs, Option.bind_some, hst, Option.map_some]

theorem exec_stepDeadline {k : Fin 4} {i : Running} {r : StepRecord} (hr : Ready s) (hd : s.stepDue k = some (i, r)) :
    exec (.stepDeadline k) s = event (fun t => t.runSlot k) s := by
  show execStepDeadline k s = _
  unfold execStepDeadline
  rw [inShow_of_ready hr, hd]
  rfl

/-- R8: a due step is issued, and the run goes on from what it leaves. -/
theorem runSteps_issue {n : Nat} {k : Fin 4} {mark : BitVec 8} {loops : List Work} {i : Running} {r : StepRecord}
    (hd : s.stepDue k = some (i, r)) (hm : s.engine.slots[k].mark = mark) :
    State.runSteps (n + 1) k mark loops s =
      State.runSteps n k mark (loops ++ (s.issueStep k i r).2) (s.issueStep k i r).1 := by
  rw [State.runSteps, hd]
  simp only [hm, if_true]

/-- R8, R20: a run ends at a slot with no due step, and its loopbacks follow. -/
theorem runSteps_ends {n : Nat} {k : Fin 4} {mark : BitVec 8} {loops : List Work} (hd : s.stepDue k = none) :
    State.runSteps n k mark loops s = s.raise loops := by
  cases n with
  | zero => rfl
  | succ n => rw [State.runSteps, hd]

/-- R8: a slot that issues one step and then has none due. -/
theorem runSlot_once {k : Fin 4} {i : Running} {r : StepRecord} {loops : List Work} (hd : s.stepDue k = some (i, r))
    (hi : s.issueStep k i r = (t, loops)) (hn : t.stepDue k = none) : s.runSlot k = t.raise loops := by
  unfold State.runSlot
  rw [runSteps_issue hd rfl, hi]
  exact runSteps_ends hn

theorem stepDue_awaiting {k : Fin 4} {i : Running} {subject : Subject} {d : Option Tick}
    (hr : s.engine.slots[k].run = some i) (hw : i.wait = .awaiting subject d) : s.stepDue k = none := by
  unfold State.stepDue
  simp only [hr, hw]

theorem stepDue_free {k : Fin 4} (hr : s.engine.slots[k].run = none) : s.stepDue k = none := by
  unfold State.stepDue
  simp only [hr]

/-! ## Steps with a step after them -/

namespace Issues

variable {k : Fin 4} {i : Running} {a : Action} {next : StepRecord}

theorem exec_eq (h : Issues s k i a next) : exec (.stepDeadline k) s = event (fun t => t.runSlot k) s := by
  obtain ⟨e, hw, he⟩ := h.due
  obtain ⟨sc, r, hs, hst, -, -⟩ := h.step
  exact exec_stepDeadline h.ready (stepDue_eq h.run hw he hs hst)

/-- R8: a step that is carried out in one go lets its slot stand at the next one. -/
theorem runSlot_moves (h : Issues s k i a next) {j : Running} {res : StepResult} (hc : s.carryOut k i a = (t, res))
    (hres : res = .moves ∨ res = .fails ∧ s.abandons k = false)
    (hk : t.engine.slots[k] = ⟨some j, s.engine.slots[k].mark⟩) (hj : j.scene = i.scene ∧ j.stepIndex = i.stepIndex)
    (hs : t.engine.scenes = s.engine.scenes) (hn : t.now = s.now) :
    s.runSlot k = (t.setSlot k ⟨some (movedOn s j next), s.engine.slots[k].mark⟩).raise (s.stepLoopback a) := by
  obtain ⟨e, hw, he⟩ := h.due
  obtain ⟨sc, r, hsc, hst, hdec, hnx⟩ := h.step
  have hrun : t.engine.slots[k].run = some j := by rw [hk]
  have htsc : t.scene? j.scene = some sc := by
    rw [hj.1, ← hsc]
    unfold State.scene?
    rw [hs]
  have hmove : t.moveOn k = t.setSlot k ⟨some (movedOn s j next), s.engine.slots[k].mark⟩ := by
    rw [moveOn_next hrun htsc (by rw [hj.2]; exact hnx), hk]
    unfold movedOn
    rw [hn]
  have hfail : s.abandons k = false → t.failStep k = t.moveOn k := fun hab => by
    unfold State.failStep
    rw [abandons_eq hrun htsc, ← abandons_eq h.run hsc, hab]
    rfl
  refine runSlot_once (stepDue_eq h.run hw he hsc hst) (t := t.setSlot k _) ?_ ?_
  · unfold State.issueStep
    simp only [hdec, hc]
    rcases hres with rfl | ⟨rfl, hab⟩
    · exact congrArg (·, s.stepLoopback a) hmove
    · exact congrArg (·, s.stepLoopback a) ((hfail hab).trans hmove)
  · exact stepDue_later (e := s.now + next.delay) (by rw [setSlot_same]) rfl
      (by rw [← hn]; exact Nat.lt_add_of_pos_right h.delay)

/-- R8, R19: a step that makes its slot wait. -/
theorem runSlot_waits (h : Issues s k i a next) {j : Running} {subject : Subject} {d : Option Tick}
    (hc : s.carryOut k i a = (t, .waits)) (hk : t.engine.slots[k].run = some j) (hj : j.wait = .awaiting subject d) :
    s.runSlot k = t.raise (s.stepLoopback a) := by
  obtain ⟨e, hw, he⟩ := h.due
  obtain ⟨sc, r, hsc, hst, hdec, -⟩ := h.step
  refine runSlot_once (stepDue_eq h.run hw he hsc hst) ?_ (stepDue_awaiting hk hj)
  unfold State.issueStep
  simp only [hdec, hc]

/-- A step that changes nothing but its slot, or what the works leave of it, ends its event with the slot moved on. -/
theorem exec_moves (h : Issues s k i a next) {j : Running} {res : StepResult} (hc : s.carryOut k i a = (t, res))
    (hres : res = .moves ∨ res = .fails ∧ s.abandons k = false) (ha : s.stepLoopback a = [])
    (hk : t.engine.slots[k] = ⟨some j, s.engine.slots[k].mark⟩) (hj : j.scene = i.scene ∧ j.stepIndex = i.stepIndex)
    (hs : t.engine.scenes = s.engine.scenes) (hn : t.now = s.now) :
    exec (.stepDeadline k) s =
      event (fun _ => t.setSlot k ⟨some (movedOn s j next), s.engine.slots[k].mark⟩) s := by
  rw [h.exec_eq]
  refine event_congr ((h.runSlot_moves hc hres hk hj hs hn).trans ?_)
  rw [ha, raise_nil]

/-- As above, for a step that leaves its own slot alone. -/
theorem exec_passes (h : Issues s k i a next) {res : StepResult} (hc : s.carryOut k i a = (t, res))
    (hres : res = .moves ∨ res = .fails ∧ s.abandons k = false) (ha : s.stepLoopback a = [])
    (hk : t.engine.slots[k] = s.engine.slots[k]) (hs : t.engine.scenes = s.engine.scenes) (hn : t.now = s.now) :
    exec (.stepDeadline k) s =
      event (fun _ => t.setSlot k ⟨some (movedOn s i next), s.engine.slots[k].mark⟩) s :=
  h.exec_moves hc hres ha (by rw [hk, ← h.run]) ⟨rfl, rfl⟩ hs hn

/-- A step that is passed over: the slot moves on, and nothing else changes. -/
theorem exec_passedOver (h : Issues s k i a next) {res : StepResult} (hc : s.carryOut k i a = (s, res))
    (hres : res = .moves ∨ res = .fails ∧ s.abandons k = false) (ha : s.stepLoopback a = []) :
    exec (.stepDeadline k) s = .next (s.setSlot k ⟨some (movedOn s i next), s.engine.slots[k].mark⟩) :=
  (h.exec_passes hc hres ha rfl rfl rfl).trans (event_quiet rfl ⟨h.ready.settled.noWorks, h.ready.settled.noCheck⟩)

end Issues

/-- R19: a slot whose AWAIT has completed without failing moves on once its work is taken. -/
theorem settle_completed {k : Fin 4} {i : Running} {out : AwaitOutcome} {mark : BitVec 8} {sc : Scene}
    {next : StepRecord} (hk : s.engine.slots[k] = ⟨some { i with wait := .completed out }, mark⟩)
    (hw : s.works = [.awaitDone k mark]) (ho : out ≠ .failed) (hs : s.scene? i.scene = some sc)
    (hn : sc.steps[i.stepIndex + 1]? = some next) (hd : 0 < next.delay) :
    State.settle 1 s = some (withWorks (s.setSlot k ⟨some (movedOn s i next), mark⟩) []) := by
  rw [← withWorks_self hw]
  refine settle_one ?_ rfl
  show (withWorks s []).takeAwaitDone k mark = _
  have hk' : (withWorks s []).engine.slots[k] = ⟨some { i with wait := .completed out }, mark⟩ := hk
  have hof : (out == .failed) = false := by simpa using ho
  rw [takeAwaitDone_completed hk', hof]
  show ((withWorks s []).moveOn k).raiseRun k = _
  rw [moveOn_next (s := withWorks s []) (i := { i with wait := .completed out }) (by rw [hk']) hs hn, hk']
  exact movedOn_raiseRun (s := withWorks s []) hd

end Sys2Proof.Machine
end

section
/-! SAY and AWAIT steps (R14, R15, R19, R85 to R87). -/

namespace Sys2Proof.Machine

variable {s t u : State}

/-! ## The order of the wait queue -/

/-- R85: an entry ranks before another: by priority, then by enqueue time, then by entering. -/
def Ahead (x y : SayEntry) : Prop := y.priority < x.priority ∨ (x.priority = y.priority ∧
  (x.enqueued < y.enqueued ∨ (x.enqueued = y.enqueued ∧ x.order < y.order)))

theorem before_iff {x y : SayEntry} : x.before y = true ↔ Ahead x y := by
  simp [SayEntry.before, Ahead]

theorem Ahead.asymm {x y : SayEntry} (h : Ahead x y) : ¬Ahead y x := by
  unfold Ahead Tick at *
  omega

theorem Ahead.of_not_ahead {x y z : SayEntry} (h : Ahead x y) (hz : ¬Ahead z y) : Ahead x z := by
  unfold Ahead Tick at *
  omega

/-- R85: an entry goes in ahead of the first one it ranks before. -/
theorem insertSay_split (e : SayEntry) : ∀ q : List SayEntry, ∃ front back, q = front ++ back ∧
    insertSay e q = front ++ e :: back ∧ (∀ x ∈ front, ¬Ahead e x) ∧ ∀ y, back.head? = some y → Ahead e y
  | [] => ⟨[], [], rfl, rfl, by simp, by simp⟩
  | x :: xs => by
    unfold insertSay
    by_cases hx : e.before x = true
    · refine ⟨[], x :: xs, rfl, by rw [if_pos hx]; rfl, by simp, fun y hy => ?_⟩
      rw [← Option.some.inj hy]
      exact before_iff.1 hx
    · obtain ⟨front, back, hq, hi, hf, hb⟩ := insertSay_split e xs
      refine ⟨x :: front, back, by rw [hq]; rfl, by rw [if_neg hx, hi]; rfl, fun y hy => ?_, hb⟩
      rcases List.mem_cons.1 hy with rfl | hy
      · exact fun h => hx (before_iff.2 h)
      · exact hf y hy

/-- R85: a queue in order stays in order. -/
theorem inOrder_insert {e : SayEntry} {front back : List SayEntry}
    (hq : (front ++ back).Pairwise fun x y => ¬Ahead y x) (hf : ∀ x ∈ front, ¬Ahead e x)
    (hb : ∀ y, back.head? = some y → Ahead e y) :
    (∀ y ∈ back, Ahead e y) ∧ (front ++ e :: back).Pairwise fun x y => ¬Ahead y x := by
  obtain ⟨hfront, hback, hcross⟩ := List.pairwise_append.1 hq
  have hall : ∀ y ∈ back, Ahead e y := by
    cases back with
    | nil => simp
    | cons z zs =>
      intro y hy
      have hz : Ahead e z := hb z rfl
      rcases List.mem_cons.1 hy with rfl | hy
      · exact hz
      · exact hz.of_not_ahead ((List.pairwise_cons.1 hback).1 y hy)
  refine ⟨hall, List.pairwise_append.2 ⟨hfront, List.pairwise_cons.2 ⟨fun y hy => (hall y hy).asymm, hback⟩, ?_⟩⟩
  intro x hx y hy
  rcases List.mem_cons.1 hy with rfl | hy
  · exact hf x hx
  · exact hcross x hx y hy

/-! ## Reports about a SAY -/

/-- R15: a slot once a report about a SAY has reached it: its handle moves when the report is about its latest SAY. -/
def reportedSlot (r : Slot) (e : SayEntry) (h : Handle) : Slot :=
  if r.mark = e.mark then
    { r with run := r.run.map fun i => if i.sayCount = e.sayNumber then { i with handle := h } else i }
  else r

theorem setSlot_self {k : Fin 4} {r : Slot} (h : s.engine.slots[k] = r) : s.setSlot k r = s := by
  subst h
  simp [State.setSlot]

theorem slot_eq_of_run {r : Slot} {run : Option Running} (h : r.run = run) : r = ⟨run, r.mark⟩ := by rw [← h]

/-- R10, R15: a report about a SAY whose slot does not AWAIT narration changes that slot's handle alone. -/
theorem reportSay_eq {e : SayEntry} (hd : Handle) (h : s.engine.slots[e.slot].awaits .narration = false) :
    s.reportSay e hd = s.setSlot e.slot (reportedSlot s.engine.slots[e.slot] e hd) := by
  unfold State.reportSay State.instanceOf reportedSlot
  by_cases hm : s.engine.slots[e.slot].mark = e.mark
  · rw [if_pos hm, if_pos hm]
    cases hr : s.engine.slots[e.slot].run with
    | none => exact (setSlot_self (slot_eq_of_run hr)).symm
    | some i =>
      simp only [Option.map_some]
      by_cases hc : i.sayCount = e.sayNumber
      · rw [if_pos hc, if_pos hc]
        have haw : (State.setSlot s e.slot { s.engine.slots[e.slot] with run := some { i with handle := hd } }).engine.slots[
            e.slot].awaits .narration = false := by
          rw [setSlot_same]
          unfold Slot.awaits at h ⊢
          rw [hr] at h
          exact h
        cases hd.outcome? with
        | none => rfl
        | some out => exact endAwait_not out haw
      · rw [if_neg hc, if_neg hc]
        exact (setSlot_self (slot_eq_of_run hr)).symm
  · rw [if_neg hm, if_neg hm]
    exact (setSlot_self rfl).symm

/-- R15: a report that tells a slot of its latest SAY. -/
theorem reportSay_own {k : Fin 4} {i : Running} {e : SayEntry} (hd : Handle) (hs : e.slot = k)
    (hk : s.engine.slots[k] = ⟨some i, e.mark⟩) (hn : i.sayCount = e.sayNumber)
    (hw : ∀ subject d, i.wait ≠ .awaiting subject d) :
    s.reportSay e hd = s.setSlot k ⟨some { i with handle := hd }, e.mark⟩ := by
  subst hs
  have haw : s.engine.slots[e.slot].awaits .narration = false := by
    rw [hk]
    unfold Slot.awaits
    cases h : i.wait with
    | awaiting x d => exact absurd h (hw x d)
    | _ => simp [h]
  rw [reportSay_eq hd haw, hk]
  unfold reportedSlot
  simp only [if_true, Option.map_some, hn]

/-! ## SAY -/

/-- R14: the running scene that issues a SAY, its count of SAYs one higher and its handle set. -/
def said (i : Running) (h : Handle) : Running := { i with sayCount := i.sayCount + 1, handle := h }

theorem checkStart_busy (h : s.player.state ≠ .idle) : s.checkStart = s := by
  unfold State.checkStart
  split
  · rfl
  · refine if_neg ?_
    unfold State.mayStart
    simp [h]

/-- R86: an entry of a slot's latest SAY joins the queue, and its handle is QUEUED. -/
theorem enqueueSay_own {k : Fin 4} {i : Running} {e : SayEntry} (hs : e.slot = k)
    (hk : s.engine.slots[k] = ⟨some i, e.mark⟩) (hn : i.sayCount = e.sayNumber)
    (hw : ∀ subject d, i.wait ≠ .awaiting subject d) :
    s.enqueueSay e =
      (s.setSayQueue (insertSay e s.player.queue)).setSlot k ⟨some { i with handle := .queued }, e.mark⟩ :=
  reportSay_own (s := s.setSayQueue _) .queued hs hk hn hw

theorem find_isFor_none {q : List SayEntry} {k : Fin 4} {clip : Byte} (h : ∀ x ∈ q, x.slot ≠ k ∨ x.clip ≠ clip) :
    (q.find? fun x => x.isFor k clip) = none := by
  rw [List.find?_eq_none]
  intro x hx
  rcases h x hx with h | h <;> simp [SayEntry.isFor, h]

theorem any_isFor_none {q : List SayEntry} {k : Fin 4} {clip : Byte} (h : ∀ x ∈ q, x.slot ≠ k ∨ x.clip ≠ clip) :
    (q.any fun x => x.isFor k clip) = false := by
  rw [List.any_eq_false]
  exact fun x hx => by simpa using List.find?_eq_none.1 (find_isFor_none h) x hx

/-- R86: a new entry that finds room. -/
theorem acceptSay_joins {e : SayEntry} (hx : ∀ x ∈ s.player.queue, x.slot ≠ e.slot ∨ x.clip ≠ e.clip)
    (hq : s.player.queue.length < 8) : s.acceptSay e = s.addSay e := by
  unfold State.acceptSay
  rw [find_isFor_none hx]
  exact if_pos hq

/-- R86: a request that takes the place of an entry of its slot and clip. -/
theorem acceptSay_replaces {e x : SayEntry} (hx : s.player.queue.find? (fun y => y.isFor e.slot e.clip) = some x) :
    s.acceptSay e = (s.setSayQueue (s.player.queue.filter fun y => !y.isFor e.slot e.clip)).enqueueSay
      { e with enqueued := x.enqueued, order := x.order } := by
  unfold State.acceptSay
  rw [hx]

/-- R87: a new entry that takes the place of the last one in a full queue. -/
theorem acceptSay_displaces {e last : SayEntry} {front : List SayEntry} (hq : s.player.queue = front ++ [last])
    (hl : front.length = 7) (hx : ∀ x ∈ s.player.queue, x.slot ≠ e.slot ∨ x.clip ≠ e.clip) :
    s.acceptSay e = ((s.setSayQueue front).reportSay last .dropped).addSay e := by
  unfold State.acceptSay
  rw [find_isFor_none hx, hq]
  simp [hl]

theorem addSay_own {k : Fin 4} {i : Running} {e : SayEntry} (hs : e.slot = k)
    (hk : s.engine.slots[k] = ⟨some i, e.mark⟩) (hn : i.sayCount = e.sayNumber)
    (hw : ∀ subject d, i.wait ≠ .awaiting subject d) :
    s.addSay e =
      State.setSlot
        { s with
          player.queue := insertSay { e with order := s.player.entered } s.player.queue
          player.entered := s.player.entered + 1 } k ⟨some { i with handle := .queued }, e.mark⟩ :=
  enqueueSay_own (s := { s with player.entered := s.player.entered + 1 }) (e := { e with order := s.player.entered })
    hs hk hn hw

/-! ## The steps -/

theorem Issues.delaying {k : Fin 4} {i : Running} {a : Action} {next : StepRecord} (h : Issues s k i a next) :
    ∀ subject d, i.wait ≠ .awaiting subject d := by
  obtain ⟨e, hw, -⟩ := h.due
  intro subject d hd
  rw [hw] at hd
  cases hd

section Say

variable {k : Fin 4} {i : Running} {next : StepRecord} {clip : Byte} {priority patience : Nat}

/-- The entry of a SAY (R14, R85). -/
def sayEntry (s : State) (k : Fin 4) (i : Running) (clip : Byte) (priority patience : Nat) (enqueued : Tick)
    (order : Nat) : SayEntry :=
  ⟨k, s.engine.slots[k].mark, clip, priority, enqueued, s.now + 100 * max 1 patience, i.sayCount + 1, order⟩

/-- The state of a slot that issues a SAY, before the request reaches the player. -/
theorem setRun_said : (s.setRun k (some (said i .dropped))).engine.slots[k] =
    ⟨some (said i .dropped), s.engine.slots[k].mark⟩ := setSlot_same _ _

/-- R14, R86, R87: a SAY that is refused. -/
theorem say_refused (h : Issues s k i (.say clip priority patience) next) (hab : s.abandons k = false)
    (hc : s.carryOut k i (.say clip priority patience) = (s.setRun k (some (said i .dropped)), .fails)) :
    exec (.stepDeadline k) s =
      .next (s.setSlot k ⟨some { movedOn s i next with sayCount := i.sayCount + 1, handle := .dropped },
        s.engine.slots[k].mark⟩) := by
  rw [h.exec_moves hc (.inr ⟨rfl, hab⟩) rfl setRun_said ⟨rfl, rfl⟩ rfl rfl]
  refine event_quiet ?_ ⟨h.ready.settled.noWorks, h.ready.settled.noCheck⟩
  exact setSlot_setSlot _ _ _

/-- R14, R86: a SAY that the player takes moves its slot on with the handle QUEUED. -/
theorem say_queued (h : Issues s k i (.say clip priority patience) next) (hw : u.works = [])
    (hcheck : u.announceCheck = false)
    (hc : s.carryOut k i (.say clip priority patience) =
      (u.setSlot k ⟨some (said i .queued), s.engine.slots[k].mark⟩, .moves))
    (hs : u.engine.scenes = s.engine.scenes) (hn : u.now = s.now) :
    exec (.stepDeadline k) s =
      .next (u.setSlot k ⟨some { movedOn s i next with sayCount := i.sayCount + 1, handle := .queued },
        s.engine.slots[k].mark⟩) := by
  rw [h.exec_moves hc (.inl rfl) rfl (setSlot_same _ _) ⟨rfl, rfl⟩ hs hn]
  exact event_quiet (setSlot_setSlot _ _ _) ⟨hw, hcheck⟩

/-- R14: what carrying out a SAY of a present clip does, by whether the request is accepted. -/
theorem carryOut_say (hclip : s.clip? clip ≠ none) :
    s.carryOut k i (.say clip priority patience) =
      if s.sayAccepted (sayEntry s k i clip priority patience s.now 0) then
        (((s.setRun k (some (said i .dropped))).acceptSay (sayEntry s k i clip priority patience s.now 0)).checkStart,
          .moves)
      else ((s.setRun k (some (said i .dropped))).checkStart, .fails) := by
  show s.issueSay k i clip priority patience = _
  unfold State.issueSay
  simp only []
  rw [if_neg]
  · rfl
  · simpa using hclip

theorem carryOut_taken (hclip : s.clip? clip ≠ none)
    (ha : s.sayAccepted (sayEntry s k i clip priority patience s.now 0) = true)
    (ht : (s.setRun k (some (said i .dropped))).acceptSay (sayEntry s k i clip priority patience s.now 0) = t)
    (hp : t.player.state ≠ .idle) : s.carryOut k i (.say clip priority patience) = (t, .moves) := by
  rw [carryOut_say hclip, if_pos ha, ht, checkStart_busy hp]

theorem carryOut_say_absent (hclip : s.clip? clip = none) :
    s.carryOut k i (.say clip priority patience) = (s.setRun k (some (said i .dropped)), .fails) := by
  show s.issueSay k i clip priority patience = _
  unfold State.issueSay
  simp only []
  rw [if_pos (by simp [hclip])]
  rfl

/-- R86: a request that finds room joins the queue. -/
theorem say_joins (h : Issues s k i (.say clip priority patience) next) (hclip : s.clip? clip ≠ none)
    (hp : s.player.state ≠ .idle) (hq : s.player.queue.length < 8)
    (hx : ∀ x ∈ s.player.queue, x.slot ≠ k ∨ x.clip ≠ clip) :
    exec (.stepDeadline k) s =
      .next (State.setSlot
        { s with
          player.queue := insertSay (sayEntry s k i clip priority patience s.now s.player.entered) s.player.queue
          player.entered := s.player.entered + 1 }
        k ⟨some { movedOn s i next with sayCount := i.sayCount + 1, handle := .queued }, s.engine.slots[k].mark⟩) := by
  refine say_queued h (u := { s with
          player.queue := insertSay (sayEntry s k i clip priority patience s.now s.player.entered) s.player.queue
          player.entered := s.player.entered + 1 }) h.ready.settled.noWorks h.ready.settled.noCheck ?_ rfl rfl
  have haccept : s.sayAccepted (sayEntry s k i clip priority patience s.now 0) = true := by
    unfold State.sayAccepted
    simp [hq]
  have htake := (acceptSay_joins (s := s.setRun k (some (said i .dropped)))
    (e := sayEntry s k i clip priority patience s.now 0) hx hq).trans
    (addSay_own (k := k) (i := said i .dropped) rfl setRun_said rfl h.delaying)
  exact carryOut_taken hclip haccept (htake.trans (setSlot_setSlot (s := { s with
    player.queue := insertSay (sayEntry s k i clip priority patience s.now s.player.entered) s.player.queue
    player.entered := s.player.entered + 1 }) _ _ _)) hp

/-- R86: a request for a clip that its slot has queued already takes the place of that entry. -/
theorem say_replaces {x : SayEntry} (h : Issues s k i (.say clip priority patience) next) (hclip : s.clip? clip ≠ none)
    (hp : s.player.state ≠ .idle) (hx : s.player.queue.find? (fun y => y.isFor k clip) = some x) :
    exec (.stepDeadline k) s =
      .next (State.setSlot
        { s with
          player.queue :=
            insertSay (sayEntry s k i clip priority patience x.enqueued x.order)
              (s.player.queue.filter fun y => !y.isFor k clip) }
        k ⟨some { movedOn s i next with sayCount := i.sayCount + 1, handle := .queued }, s.engine.slots[k].mark⟩) := by
  refine say_queued h (u := { s with
          player.queue :=
            insertSay (sayEntry s k i clip priority patience x.enqueued x.order)
              (s.player.queue.filter fun y => !y.isFor k clip) })
    h.ready.settled.noWorks h.ready.settled.noCheck ?_ rfl rfl
  have haccept : s.sayAccepted (sayEntry s k i clip priority patience s.now 0) = true := by
    have : (s.player.queue.any fun y => y.isFor k clip) = true :=
      List.any_eq_true.2 ⟨x, List.mem_of_find?_eq_some hx, List.find?_some (p := fun y : SayEntry => y.isFor k clip) hx⟩
    unfold State.sayAccepted
    rw [show (s.player.queue.any fun y => y.isFor (sayEntry s k i clip priority patience s.now 0).slot
      (sayEntry s k i clip priority patience s.now 0).clip) = true from this]
    rfl
  have htake := (acceptSay_replaces (s := s.setRun k (some (said i .dropped)))
    (e := sayEntry s k i clip priority patience s.now 0) hx).trans
    (enqueueSay_own (k := k) (i := said i .dropped) rfl setRun_said rfl h.delaying)
  exact carryOut_taken hclip haccept (htake.trans (setSlot_setSlot (s := { s with
    player.queue := insertSay (sayEntry s k i clip priority patience x.enqueued x.order)
      (s.player.queue.filter fun y => !y.isFor k clip) }) _ _ _)) hp

theorem sayAccepted_full {front : List SayEntry} {last e : SayEntry} (hq : s.player.queue = front ++ [last])
    (hl : front.length = 7) (hx : ∀ x ∈ s.player.queue, x.slot ≠ e.slot ∨ x.clip ≠ e.clip) :
    s.sayAccepted e = decide (last.priority < e.priority) := by
  unfold State.sayAccepted
  rw [any_isFor_none hx, hq]
  simp [hl]

/-- R87: a request that finds the queue full and does not outrank its last entry. -/
theorem carryOut_say_full {front : List SayEntry} {last : SayEntry} (hclip : s.clip? clip ≠ none)
    (hp : s.player.state ≠ .idle) (hq : s.player.queue = front ++ [last]) (hl : front.length = 7)
    (hx : ∀ x ∈ s.player.queue, x.slot ≠ k ∨ x.clip ≠ clip) (hle : priority ≤ last.priority) :
    s.carryOut k i (.say clip priority patience) = (s.setRun k (some (said i .dropped)), .fails) := by
  have hno : s.sayAccepted (sayEntry s k i clip priority patience s.now 0) ≠ true := by
    rw [sayAccepted_full hq hl hx]
    exact fun h => absurd (of_decide_eq_true h) (Nat.not_lt.2 hle)
  rw [carryOut_say hclip, if_neg hno, checkStart_busy (s := s.setRun k _) hp]

theorem setSlot_under {j k : Fin 4} (a b c : Slot) :
    ((s.setSlot k a).setSlot j b).setSlot k c = (s.setSlot j b).setSlot k c := by
  by_cases hj : j = k
  · subst hj
    simp only [setSlot_setSlot]
  · refine congrArg (fun v => { s with engine.slots := v }) ?_
    have hv : (j : Nat) ≠ k := fun h => hj (Fin.ext h)
    simp only [State.setSlot]
    rw [Vector.set_comm _ _ hv, Vector.set_set, Vector.set_comm _ _ hv.symm]

theorem reportedSlot_said {mark : BitVec 8} (e : SayEntry) :
    reportedSlot ⟨some (said i .dropped), mark⟩ e .dropped = ⟨some (said i .dropped), mark⟩ := by
  unfold reportedSlot
  split
  · simp only [Option.map_some]
    split <;> rfl
  · rfl

/-- The state once a request has displaced the last entry of a full queue (R87): that entry's handle DROPPED. -/
def displacing (s : State) (e last : SayEntry) (front : List SayEntry) : State :=
  State.setSlot
    { s with player.queue := insertSay e front, player.entered := s.player.entered + 1 } last.slot
    (reportedSlot s.engine.slots[last.slot] last .dropped)

/-- R87: a request that outranks the last entry of a full queue. -/
theorem say_displaces {front : List SayEntry} {last : SayEntry}
    (h : Issues s k i (.say clip priority patience) next) (hclip : s.clip? clip ≠ none) (hp : s.player.state ≠ .idle)
    (hq : s.player.queue = front ++ [last]) (hl : front.length = 7)
    (hx : ∀ x ∈ s.player.queue, x.slot ≠ k ∨ x.clip ≠ clip) (hlt : last.priority < priority)
    (hn : NobodyAwaits s .narration) :
    exec (.stepDeadline k) s =
      .next (State.setSlot
        (displacing s (sayEntry s k i clip priority patience s.now s.player.entered) last front) k
        ⟨some { movedOn s i next with sayCount := i.sayCount + 1, handle := .queued }, s.engine.slots[k].mark⟩) := by
  refine say_queued h h.ready.settled.noWorks h.ready.settled.noCheck ?_ rfl rfl
  have haccept : s.sayAccepted (sayEntry s k i clip priority patience s.now 0) = true := by
    rw [sayAccepted_full hq hl hx]
    exact decide_eq_true hlt
  refine carryOut_taken hclip haccept ?_ hp
  generalize ht : (s.setRun k (some (said i .dropped))).setSayQueue front = t
  have hk : t.engine.slots[k] = ⟨some (said i .dropped), s.engine.slots[k].mark⟩ := by rw [← ht]; exact setRun_said
  have hother : ∀ j, j ≠ k → t.engine.slots[j] = s.engine.slots[j] := fun j hj => by
    rw [← ht]
    exact setSlot_other _ hj
  have hquiet : t.engine.slots[last.slot].awaits .narration = false := by
    by_cases hj : last.slot = k
    · subst hj
      rw [hk]
      unfold Slot.awaits
      obtain ⟨e, hw, -⟩ := h.due
      simp only [said, hw]
    · rw [hother _ hj]
      exact hn _
  have hk' : (t.setSlot last.slot (reportedSlot t.engine.slots[last.slot] last .dropped)).engine.slots[k] =
      ⟨some (said i .dropped), s.engine.slots[k].mark⟩ := by
    by_cases hj : last.slot = k
    · subst hj
      rw [setSlot_same, hk, reportedSlot_said]
    · rw [setSlot_other _ (Ne.symm hj), hk]
  have htake := (acceptSay_displaces (s := s.setRun k (some (said i .dropped)))
    (e := sayEntry s k i clip priority patience s.now 0) hq hl hx).trans
    (congrArg (State.addSay · _) ((congrArg (State.reportSay · last .dropped) ht).trans (reportSay_eq .dropped hquiet)))
  refine htake.trans ((addSay_own (k := k) (i := said i .dropped) rfl hk' rfl h.delaying).trans ?_)
  subst ht
  refine (setSlot_under (s := { s with
    player.queue := insertSay (sayEntry s k i clip priority patience s.now s.player.entered) front
    player.entered := s.player.entered + 1 }) (j := last.slot) (k := k) ⟨some (said i .dropped), s.engine.slots[k].mark⟩
    (reportedSlot _ last .dropped) _).trans ?_
  by_cases hj : last.slot = k
  · subst hj
    exact (setSlot_setSlot _ _ _).trans (setSlot_setSlot _ _ _).symm
  · rw [hother _ hj]
    rfl

end Say

/-! ## AWAIT -/

theorem isTakeover_iff {owner : Option Owner} {k : Fin 4} : isTakeover owner k = true ↔ OtherOwns owner k := by
  unfold isTakeover OtherOwns
  cases owner <;> simp

/-- R19: the outcome of an AWAIT that completes at once without failing. -/
theorem settledOutcome_passes {k : Fin 4} {handle : Handle} {subject : Subject} (h : PassesAtOnce s k handle subject) :
    ∃ o, s.settledOutcome k handle subject = some o ∧ o ≠ .failed := by
  unfold State.settledOutcome
  cases subject with
  | narration => rcases h with rfl | rfl <;> exact ⟨.done, rfl, by decide⟩
  | drive d =>
    obtain h | h | ⟨h, ho⟩ := h
    · exact ⟨.done, by simp only [h], by decide⟩
    · exact ⟨.done, by simp only [h], by decide⟩
    · refine ⟨.preempted, ?_, by decide⟩
      rcases h with h | h | h <;> simp only [h, isTakeover_iff.2 ho, if_true]
  | fade c =>
    by_cases hf : s.lamps[c].fading = true
    · obtain h | h := h
      · rw [h] at hf
        cases hf
      · exact ⟨.preempted, by simp only [hf, isTakeover_iff.2 h]; rfl, by decide⟩
    · rw [Bool.not_eq_true] at hf
      exact ⟨.done, by simp only [hf]; rfl, by decide⟩
  | track => rcases h with h | h <;> exact ⟨.done, by simp only [h], by decide⟩

theorem settledOutcome_fails {k : Fin 4} {handle : Handle} {subject : Subject} (h : FailsAtOnce s handle subject) :
    s.settledOutcome k handle subject = some .failed := by
  unfold State.settledOutcome
  cases subject with
  | narration => rcases h with rfl | rfl <;> rfl
  | drive d => simp only [show s.drives[d].state = .faulted from h]
  | fade c => exact h.elim
  | track => simp only [show s.track.state = .faulted from h]

theorem settledOutcome_waits {k : Fin 4} {handle : Handle} {subject : Subject} (hp : ¬PassesAtOnce s k handle subject)
    (hf : ¬FailsAtOnce s handle subject) : s.settledOutcome k handle subject = none := by
  unfold State.settledOutcome
  cases subject with
  | narration =>
    cases handle with
    | none => exact absurd (.inl rfl) hp
    | done => exact absurd (.inr rfl) hp
    | dropped => exact absurd (.inl rfl) hf
    | expired => exact absurd (.inr rfl) hf
    | _ => rfl
  | drive d =>
    have hown : (s.drives[d].state = .homing ∨ s.drives[d].state = .pendingPower ∨ s.drives[d].state = .moving) →
        isTakeover s.engine.driveOwners[d] k = false := fun h =>
      Bool.eq_false_iff.2 fun ht => hp (.inr (.inr ⟨h, isTakeover_iff.1 ht⟩))
    cases h : s.drives[d].state with
    | idle => exact absurd (.inl h) hp
    | unhomed => exact absurd (.inr (.inl h)) hp
    | faulted => exact absurd h hf
    | track => simp only [h]
    | homing => simp only [h, hown (.inl h)]; rfl
    | pendingPower => simp only [h, hown (.inr (.inl h))]; rfl
    | moving => simp only [h, hown (.inr (.inr h))]; rfl
  | fade c =>
    have hfade : s.lamps[c].fading = true := by
      by_contra h
      exact hp (.inl (Bool.not_eq_true _ ▸ h))
    have hown : isTakeover s.engine.channelOwners[c] k = false :=
      Bool.eq_false_iff.2 fun ht => hp (.inr (isTakeover_iff.1 ht))
    simp only [hfade, hown]
    rfl
  | track =>
    cases h : s.track.state with
    | empty => exact absurd (.inl h) hp
    | holding => exact absurd (.inr h) hp
    | faulted => exact absurd h hf
    | _ => rfl

section Await

variable {k : Fin 4} {i : Running} {next : StepRecord} {subject : Subject} {limit : Nat}

theorem carryOut_await_passes (h : PassesAtOnce s k i.handle subject) :
    s.carryOut k i (.await subject limit) = (s, .moves) := by
  obtain ⟨o, ho, hne⟩ := settledOutcome_passes h
  show s.issueAwait k i subject limit = _
  unfold State.issueAwait
  rw [ho]
  cases o with
  | failed => exact absurd rfl hne
  | _ => rfl

theorem carryOut_await_fails (h : FailsAtOnce s i.handle subject) :
    s.carryOut k i (.await subject limit) = (s, .fails) := by
  show s.issueAwait k i subject limit = _
  unfold State.issueAwait
  rw [settledOutcome_fails h]

/-- R19: an AWAIT whose subject is not settled makes its slot wait, with a deadline when it has a limit. -/
theorem await_waits (h : Issues s k i (.await subject limit) next) (hp : ¬PassesAtOnce s k i.handle subject)
    (hf : ¬FailsAtOnce s i.handle subject) :
    exec (.stepDeadline k) s =
      .next (s.setSlot k
        ⟨some { i with wait := .awaiting subject (if limit = 0 then none else some (s.now + limit)) },
          s.engine.slots[k].mark⟩) := by
  rw [h.exec_eq]
  refine event_quiet ((h.runSlot_waits (t := s.setSlot k _) ?_ (by rw [setSlot_same]) rfl).trans (raise_nil _))
    ⟨h.ready.settled.noWorks, h.ready.settled.noCheck⟩
  show s.issueAwait k i subject limit = _
  unfold State.issueAwait
  rw [settledOutcome_waits hp hf]
  rfl

end Await

/-- Settles O24: the wait queue's order, and what each SAY and AWAIT step leaves. -/
theorem sayAndAwaitSteps : Obligations.SayAndAwaitSteps := by
  refine ⟨fun e q => ?_, fun s k i next => ⟨fun clip priority patience h => ⟨fun hclip hab => ?_, fun hclip hp =>
    ⟨fun hq hx => ?_, fun front last hq hl hx => ⟨fun hle hab => ?_, fun hlt hn => ?_⟩, fun x hx => ?_⟩⟩,
    fun subject limit h => ⟨fun hp => ?_, fun hf hab => ?_, fun hp hf => ?_⟩⟩⟩
  · obtain ⟨front, back, hq, hi, hf, hb⟩ := insertSay_split e q
    refine ⟨front, back, hq, hi, hf, hb, fun hord => ?_⟩
    rw [hi]
    exact inOrder_insert (hq ▸ hord) hf hb
  · exact say_refused h hab (carryOut_say_absent hclip)
  · exact say_joins h hclip hp hq hx
  · exact say_refused h hab (carryOut_say_full hclip hp hq hl hx hle)
  · refine ⟨_, say_displaces h hclip hp hq hl hx hlt hn, rfl, setSlot_same _ _, fun j hj hl => ?_,
      fun x hk hm hr hc => ?_, rfl⟩
    · exact (setSlot_other _ hj).trans (setSlot_other _ hl)
    · refine (setSlot_other _ hk).trans ((setSlot_same _ _).trans ?_)
      unfold reportedSlot
      rw [if_pos hm, hr, Option.map_some, if_pos hc, hm]
  · exact say_replaces h hclip hp hx
  · exact h.exec_passedOver (carryOut_await_passes hp) (.inl rfl) rfl
  · exact h.exec_passedOver (carryOut_await_fails hf) (.inr ⟨rfl, hab⟩) rfl
  · exact await_waits h hp hf

end Sys2Proof.Machine
end

section
/-! Failed steps and AWAITs (R22, R23): moving on, and the cancel of a running scene, also that of the track requester. -/

namespace Sys2Proof.Machine

variable {s t u v w : State}

/-- A slot's step or AWAIT fails now, in the state `u` that the failure leaves of `s` (R9, R19, R22). -/
def Failing (s : State) (k : Fin 4) (i : Running) (sc : Scene) (c : Instr) (u : State) : Prop :=
  (∃ e r, c = .stepDeadline k ∧ i.wait = .delaying e ∧ e ≤ s.now ∧ sc.steps[i.stepIndex]? = some r ∧
    decodeStep s.settings.trackMode r = none ∧ u = s.recordFault .sceneBad i.scene.val) ∨
  (∃ e r subject limit, c = .stepDeadline k ∧ i.wait = .delaying e ∧ e ≤ s.now ∧ sc.steps[i.stepIndex]? = some r ∧
    decodeStep s.settings.trackMode r = some (.await subject limit) ∧ FailsAtOnce s i.handle subject ∧ u = s) ∨
  (∃ subject e, c = .awaitTimeout k ∧ i.wait = .awaiting subject (some e) ∧ e ≤ s.now ∧ u = s)

/-- A slot has nothing to do now: it has no due step, and raises no run. -/
def Rests (s : State) (k : Fin 4) : Prop := s.stepDue k = none ∧ s.raiseRun k = s

theorem Rests.free {k : Fin 4} (h : s.engine.slots[k].run = none) : Rests s k := ⟨stepDue_free h, raiseRun_free h⟩

theorem Rests.later {k : Fin 4} {i : Running} {e : Tick} (hr : s.engine.slots[k].run = some i)
    (hw : i.wait = .delaying e) (he : s.now < e) : Rests s k := ⟨stepDue_later hr hw he, raiseRun_later hr hw he⟩

section

variable {k : Fin 4} {i : Running} {sc : Scene} {c : Instr}

theorem Failing.frame (h : Failing s k i sc c u) : ∃ f, u = { s with faults := f } := by
  obtain ⟨-, -, -, -, -, -, -, rfl⟩ | ⟨-, -, -, -, -, -, -, -, -, -, rfl⟩ | ⟨-, -, -, -, -, rfl⟩ := h <;>
    exact ⟨_, rfl⟩

theorem exec_awaitTimeout {subject : Subject} {e : Tick} (hr : Ready s) (hrun : s.engine.slots[k].run = some i)
    (hw : i.wait = .awaiting subject (some e)) (he : e ≤ s.now) :
    exec (.awaitTimeout k) s = event (fun t => t.completeAwait k true) s := by
  show execAwaitTimeout k s = _
  unfold execAwaitTimeout State.awaitTimedOut
  simp only [hrun, hw]
  rw [inShow_of_ready hr, if_pos]
  simpa [reached] using he

/-- R19, R22: the failure is dealt with by the failure policy. -/
theorem Failing.exec_eq (h : Failing s k i sc c u) (hr : Ready s) (hrun : s.engine.slots[k].run = some i)
    (hs : s.scene? i.scene = some sc) (hv : Rests (u.failStep k) k) : exec c s = event (fun _ => u.failStep k) s := by
  obtain ⟨e, r, rfl, hw, he, hst, hdec, rfl⟩ | ⟨e, r, subject, limit, rfl, hw, he, hst, hdec, hf, rfl⟩ |
    ⟨subject, e, rfl, hw, he, rfl⟩ := h
  · have hd := stepDue_eq hrun hw he hs hst
    rw [exec_stepDeadline hr hd]
    refine event_congr ((runSlot_once hd (loops := []) ?_ hv.1).trans (raise_nil _))
    unfold State.issueStep
    simp only [hdec]
  · have hd := stepDue_eq hrun hw he hs hst
    rw [exec_stepDeadline hr hd]
    refine event_congr ((runSlot_once hd (loops := []) ?_ hv.1).trans (raise_nil _))
    unfold State.issueStep
    simp only [hdec, carryOut_await_fails hf]
    rfl
  · rw [exec_awaitTimeout hr hrun hw he]
    exact event_congr hv.2

/-- R22: under CONTINUE the slot moves on. -/
theorem failStep_continue {next : StepRecord} (hrun : s.engine.slots[k].run = some i) (hs : s.scene? i.scene = some sc)
    (hab : sc.abandon = false) (hn : sc.steps[i.stepIndex + 1]? = some next) :
    s.failStep k = s.setSlot k ⟨some (movedOn s i next), s.engine.slots[k].mark⟩ := by
  unfold State.failStep
  rw [abandons_eq hrun hs, hab]
  exact moveOn_next hrun hs hn

/-- R22: under ABANDON its running scene is cancelled. -/
theorem failStep_abandon (hrun : s.engine.slots[k].run = some i) (hs : s.scene? i.scene = some sc)
    (hab : sc.abandon = true) : s.failStep k = s.cancelSlot k .abandoned := by
  unfold State.failStep
  rw [abandons_eq hrun hs, hab]
  rfl

/-- R23: a cancel by ABANDON, as its steps in order. -/
theorem cancelSlot_abandoned (hrun : s.engine.slots[k].run = some i) :
    s.cancelSlot k .abandoned =
      (freed ((s.cancelNarration k s.engine.slots[k].mark).cancelTrack k s.engine.slots[k].mark .abandoned) k).raise
        [.retake i.scene] := by
  unfold State.cancelSlot
  simp only [hrun]
  exact congrArg (State.raise · _) (clearOwners_setRun _)

theorem freed_run (s : State) (k : Fin 4) : (freed s k).engine.slots[k].run = none := by
  unfold freed
  rw [setSlot_same]

/-- An AWAIT that completes on a slot whose running scene ends leaves nothing of it but a work. -/
theorem freed_endAwait (subject : Subject) (out : AwaitOutcome) :
    ∃ ws, (ws = [] ∨ ws = [.awaitDone k s.engine.slots[k].mark]) ∧
      freed (s.endAwait subject out k) k = (freed s k).raise ws := by
  unfold State.endAwait
  split
  · split
    · refine ⟨_, .inr rfl, ?_⟩
      simp only [freed, State.setSlot, State.raise, Vector.set_set, Fin.getElem_fin, Vector.getElem_set_self]
    · exact ⟨[], .inl rfl, (raise_nil _).symm⟩
  · exact ⟨[], .inl rfl, (raise_nil _).symm⟩

/-- Works of a running scene that has ended, and a retake check that finds no latch kept, change nothing. -/
theorem settle_freed {ws : List Work} {mark : BitVec 8} (hws : ws = [] ∨ ws = [.awaitDone k mark])
    (hk : s.engine.slots[k].run = none) (hs : s.scene? i.scene = some sc) (hn : NoRetake s sc) (hw : s.works = []) :
    ∃ n ≤ 2, State.settle n ((s.raise ws).raise [.retake i.scene]) = some s := by
  have hidle : ∀ w ∈ ws ++ [.retake i.scene], (withWorks s []).take w = withWorks s [] := by
    rw [withWorks_self hw]
    intro w hmem
    rcases List.mem_append.1 hmem with h | h
    · rcases hws with rfl | rfl
      · cases h
      · rw [List.mem_singleton.1 h]
        show s.takeAwaitDone k mark = s
        unfold State.takeAwaitDone State.instanceOf
        rw [hk]
        split
        · rename_i hx
          split at hx <;> cases hx
        · rfl
    · rw [List.mem_singleton.1 h]
      refine retake_unasked fun sc' hs' => ?_
      rw [show sc' = sc from Option.some.inj (hs'.symm.trans hs)]
      exact hn
  have h := settle_idle hidle
  rw [withWorks_self hw] at h
  refine ⟨_, ?_, by rw [raise_raise, raise_of_none _ hw]; exact h⟩
  rcases hws with rfl | rfl <;> simp

/-- R123: the withdrawal of an ask, before its outcome reaches the scenes. -/
def withdrawnAsk (s : State) : State := ((if s.asked then s.withdrawBlockAsk else s).toPeer .cancel).endAsk

theorem forgetRequester_forgetRequester : forgetRequester (forgetRequester s) = forgetRequester s := rfl

theorem withdrawAsk_eq : s.withdrawAsk = (withdrawnAsk s).trackOutcome .failed := rfl

theorem forget_withdrawAsk :
    forgetRequester s.withdrawAsk = (forgetRequester (withdrawnAsk s)).completeAwaits .track .failed := by
  rw [withdrawAsk_eq, trackOutcome_eq, completeAwaits_forget, forgetRequester_forgetRequester]

/-- R23: the part of the requester's cancel that reaches a block which is ASKING. -/
theorem cancelTrack_asking {mark : BitVec 8} {why : CancelReason} (hw : why ≠ .halted)
    (ht : s.engine.trackRequester = some ⟨k, mark⟩) (ha : s.asking = true) :
    s.cancelTrack k mark why = forgetRequester s.withdrawAsk := by
  unfold State.cancelTrack
  rw [if_pos ht]
  simp only []
  rw [if_pos ⟨hw, ha⟩]
  rfl

/-- R23, R123: the cancel of the track requester while the block is ASKING, when no other slot AWAITS the track. -/
theorem settle_cancelAsker (hrun : s.engine.slots[k].run = some i) (hs : s.scene? i.scene = some sc)
    (ht : s.engine.trackRequester = some ⟨k, s.engine.slots[k].mark⟩) (ha : s.asking = true) (hret : NoRetake s sc)
    (hn : ∀ j : Fin 4, j ≠ k → s.engine.slots[j].awaits .track = false)
    (hp : s.cancelNarration k s.engine.slots[k].mark = w) (hw : forgetRequester (withdrawnAsk w) = v)
    (hsame : SameScenes s v) : ∃ n ≤ 2, State.settle n (s.cancelSlot k .abandoned) = some (freed v k) := by
  obtain ⟨p, hp'⟩ := cancelNarration_frame s k s.engine.slots[k].mark
  have hweq : w = { s with player := p } := hp.symm.trans hp'
  have htrack : w.cancelTrack k s.engine.slots[k].mark .abandoned = v.completeAwaits .track .failed := by
    rw [cancelTrack_asking (by decide) (by rw [hweq]; exact ht) (by rw [hweq]; exact ha), forget_withdrawAsk, hw]
  have hends : v.completeAwaits .track .failed = v.endAwait .track .failed k := by
    refine endAwaits_alone .failed (List.nodup_finRange 4) (List.mem_finRange k) fun j _ hj => ?_
    rw [hsame.slots]
    exact hn j hj
  obtain ⟨ws, hws, hfreed⟩ := freed_endAwait (s := v) (k := k) .track .failed
  rw [cancelSlot_abandoned hrun, hp, htrack, hends, hfreed]
  exact settle_freed hws (freed_run v k) ((hsame.scene? i.scene).trans hs) (hsame.noRetake hret) hsame.works

theorem mem_insertTx_iff {e x : TxEntry} : ∀ {q : List TxEntry}, x ∈ insertTx e q ↔ x = e ∨ x ∈ q
  | [] => by simp [insertTx]
  | y :: q => by
    unfold insertTx
    split
    · simp
    · rw [List.mem_cons, mem_insertTx_iff, List.mem_cons]
      tauto

theorem freed_channelOwner {ch : Fin 12} {o : Owner} (h : (freed s k).engine.channelOwners[ch] = some o) :
    o.slot ≠ k := by
  refine ownerAfter_other (x := s.engine.channelOwners[ch]) ?_
  rw [← h]
  exact (Vector.getElem_map _ _).symm

theorem freed_driveOwner {d : Fin 4} {o : Owner} (h : (freed s k).engine.driveOwners[d] = some o) : o.slot ≠ k := by
  refine ownerAfter_other (x := s.engine.driveOwners[d]) ?_
  rw [← h]
  exact (Vector.getElem_map _ _).symm

/-- R123: the waiting BLOCK_ASK of the exchange out of the queue in phase ASKED, and the release in it. -/
theorem withdrawnAsk_frame (hn : NothingElseWaits s 3) (hq : s.line.queue.length < 8) :
    ∃ q lamps share, withdrawnAsk s =
        { s with
          track.state := .holding, track.peer := none, track.grantTimer := .stopped, track.retryTimer := none
          track.giveUpTimer := none, line.queue := q, lamps := lamps, share := share, announceCheck := true } ∧
      share.motorDemand = (withdrawnAsk s).motorDemand ∧ (∀ e ∈ share.admissions, e.drive ≠ 3) ∧
      (∃ x ∈ q, x.body = .blockRelease (s.track.peer.getD 0) .cancel ∧ x.isLoad = false) ∧
      (s.track.state = .askingAsked →
        ∀ x ∈ q, x.isAsk = true → x.inTransmission = true ∨ x.claim ≠ s.track.exchange) := by
  generalize hv : (if s.asked then s.withdrawBlockAsk else s) = v
  have hvq : v = s.setTxQueue v.line.queue := by
    rw [← hv]
    split <;> rfl
  have hlen : v.line.queue.length < 8 := by
    rw [← hv]
    split
    · exact lt_of_le_of_lt (List.length_filter_le _ _) hq
    · exact hq
  have hrel := toPeer_room .cancel hlen
  have hends : withdrawnAsk s = (v.toPeer .cancel).endAsk := by
    unfold withdrawnAsk
    rw [hv]
  obtain ⟨lamps, share, hask, hm, hadm⟩ := endAsk_frame (s := v.toPeer .cancel) (by rw [hrel, hvq]; exact hn)
  refine ⟨_, lamps, share, ?_, ?_, fun e he => ?_, ⟨_, mem_insertTx ⟨.blockRelease (s.track.peer.getD 0) .cancel,
    s.now, false, 0⟩ v.line.queue, rfl, rfl⟩, fun hst x hx hxa => ?_⟩
  · rw [hends, hask, hrel, hvq]
    rfl
  · rw [hends]
    exact hm
  · rw [hadm] at he
    simpa using (List.mem_filter.1 he).2
  · have hasked : s.asked = true := by
      unfold State.asked
      rw [hst]
      rfl
    rw [if_pos hasked] at hv
    rcases mem_insertTx_iff.1 hx with rfl | hx
    · cases hxa
    · rw [← hv] at hx
      exact (mem_withdrawBlockAsk.1 hx).2 hxa

/-- Settles O27: each failure ends in the failure policy, and the cancel of an asker withdraws its ask. -/
theorem failedStepFollowsPolicy : Obligations.FailedStepFollowsPolicy := by
  intro s k i sc c u hr hrun hs hfail
  have hfail : Failing s k i sc c u := hfail
  obtain ⟨f, hu⟩ := hfail.frame
  have hurun : u.engine.slots[k].run = some i := by rw [hu]; exact hrun
  have hus : u.scene? i.scene = some sc := by rw [hu]; exact hs
  refine ⟨fun next hab hn hd => ?_, fun hab ht hp hret => ?_, fun hab ht ha hret hn hadm hq => ?_⟩
  · have hv := failStep_continue hurun hus hab hn
    rw [hfail.exec_eq hr hrun hs (hv ▸ Rests.later (by rw [setSlot_same]) rfl (Nat.lt_add_of_pos_right hd))]
    refine event_quiet (hv.trans ?_) ?_
    · rw [hu]
      rfl
    · rw [hu]
      exact ⟨hr.settled.noWorks, hr.settled.noCheck⟩
  · have hcancel := failStep_abandon hurun hus hab
    obtain ⟨p, hends⟩ := settle_abandoned hurun hus (by rw [hu]; exact ht) (by rw [hu]; exact hret)
      (by rw [hu]; exact hr.settled.noWorks)
    have hrests : Rests (u.failStep k) k := by
      rw [hcancel, cancelSlot_abandoned hurun]
      exact Rests.free (freed_run _ k)
    have hcheck : (freed { u with player := p } k).announceCheck = false := by rw [hu]; exact hr.settled.noCheck
    rw [hfail.exec_eq hr hrun hs hrests, event_ends (body := fun _ => u.failStep k) hcancel hends (by decide), announce_none hcheck]
    refine ⟨_, rfl, ?_, fun j hj => ?_, fun _ _ => freed_channelOwner, fun _ _ => freed_driveOwner, ?_, ?_, ?_, rfl⟩
    · rw [hu]
      exact setSlot_same _ _
    · rw [hu]
      exact setSlot_other _ hj
    · rw [hu]
      rfl
    · rw [hu]
      rfl
    · rw [hu]
      rfl
  · have hcancel := failStep_abandon hurun hus hab
    have hrests : Rests (u.failStep k) k := by
      rw [hcancel, cancelSlot_abandoned hurun]
      exact Rests.free (freed_run _ k)
    generalize hw : u.cancelNarration k u.engine.slots[k].mark = w
    obtain ⟨p, hp⟩ := cancelNarration_frame u k u.engine.slots[k].mark
    have hweq : w = { s with faults := f, player := p } := by rw [← hw, hp, hu]
    obtain ⟨q, lamps, share, hask, hm, hadm', hrel, hasks⟩ :=
      withdrawnAsk_frame (s := w) (by rw [hweq]; exact hadm) (by rw [hweq]; exact hq)
    generalize hv : forgetRequester (withdrawnAsk w) = v
    have hveq : v =
        { s with
          faults := f, player := p
          track.state := .holding, track.peer := none, track.grantTimer := .stopped, track.retryTimer := none
          track.giveUpTimer := none, line.queue := q, lamps := lamps, share := share, announceCheck := true
          engine.trackRequester := none } := by
      rw [← hv, hask, hweq]
      rfl
    have hsame : SameScenes u v := by
      rw [hveq, hu]
      exact ⟨⟨none, rfl⟩, rfl, rfl, hr.settled.noWorks⟩
    obtain ⟨n, hn2, hends⟩ := settle_cancelAsker hurun hus (by rw [hu]; exact ht) (by rw [hu]; exact ha)
      (by rw [hu]; exact hret) (by rw [hu]; exact hn) hw hv hsame
    rw [hfail.exec_eq hr hrun hs hrests, event_ends (body := fun _ => u.failStep k) hcancel hends (by omega)]
    refine ⟨_, rfl, ?_, ?_, ?_, fun hst x hx hxa => ?_, ?_, ?_, ?_⟩
    · rw [announce_engine, hveq]
      rfl
    · rw [announce_track, hveq]
      rfl
    · obtain ⟨x, hx, hb, hl⟩ := hrel
      refine ⟨x, mem_announce_queue ?_ hl, by rw [hb, hweq]⟩
      rw [hveq]
      exact hx
    · rcases of_mem_announce_queue hx with hx | hx
      · have := hasks (by rw [hweq]; exact hst) x (by rw [hveq] at hx; exact hx) hxa
        rwa [hweq] at this
      · rw [isLoad_eq_false_of_isAsk hxa] at hx
        cases hx
    · rw [announce_share_admissions, hveq]
      exact hadm'
    · have hmv : v.motorDemand = (withdrawnAsk w).motorDemand := by
        rw [← hv]
        exact forgetRequester_motorDemand _
      have hvs : v.share.motorDemand = v.motorDemand := by rw [hmv, ← hm, hveq]
      rw [announce_share_motorDemand, announce_motorDemand]
      exact hvs
    · rw [announce_drives, hveq]
      rfl

end

end Sys2Proof.Machine
end

section
/-! Runs of CUE steps (R8, R9, R20). -/

namespace Sys2Proof.Machine

variable {s t u v : State}

/-- R20: the frames of a run of CUE steps in the transmit queue. -/
def sentCues (s : State) (frames : List (Nat × Nat)) : State :=
  { s with line.queue := frames.foldl (fun q x => insertTx ⟨.cue x.1 x.2, s.now, false, 0⟩ q) s.line.queue }

/-- The steps of a scene from an index on are CUE steps with these frames, each after the first without a delay. -/
def CuesAt (s : State) (sc : Scene) (n : Nat) (frames : List (Nat × Nat)) : Prop :=
  ∀ (j : Nat) (x : Nat × Nat), frames[j]? = some x →
    ∃ r, sc.steps[n + j]? = some r ∧ decodeStep s.settings.trackMode r = some (.cue x.1 x.2) ∧ (0 < j → r.delay = 0)

theorem CuesAt.head {sc : Scene} {n : Nat} {x : Nat × Nat} {frames : List (Nat × Nat)} (h : CuesAt s sc n (x :: frames)) :
    ∃ r, sc.steps[n]? = some r ∧ decodeStep s.settings.trackMode r = some (.cue x.1 x.2) := by
  obtain ⟨r, hr, hd, -⟩ := h 0 x rfl
  exact ⟨r, hr, hd⟩

theorem CuesAt.tail {sc : Scene} {n : Nat} {x : Nat × Nat} {frames : List (Nat × Nat)} (h : CuesAt s sc n (x :: frames)) :
    CuesAt s sc (n + 1) frames := fun j y hy => by
  obtain ⟨r, hr, hd, hz⟩ := h (j + 1) y hy
  exact ⟨r, by rw [← hr, Nat.add_assoc, Nat.add_comm 1], hd, fun _ => hz (Nat.succ_pos j)⟩

/-- The second of two CUE steps has no delay. -/
theorem CuesAt.next {sc : Scene} {n : Nat} {x y : Nat × Nat} {frames : List (Nat × Nat)}
    (h : CuesAt s sc n (x :: y :: frames)) : ∃ r, sc.steps[n + 1]? = some r ∧ r.delay = 0 := by
  obtain ⟨r, hr, -, hz⟩ := h 1 y rfl
  exact ⟨r, hr, hz Nat.one_pos⟩

theorem sentCues_one {x : Nat × Nat} (h : s.line.queue.length < 8) : s.handOver (.cue x.1 x.2) = sentCues s [x] :=
  handOver_room (body := .cue x.1 x.2) (by simp [FrameBody.kind]) h

variable {k : Fin 4} {mark : BitVec 8} {sc : Scene}

/-- R8, R20: a CUE step is issued. -/
theorem issueStep_cue {i : Running} {r : StepRecord} {x : Nat × Nat}
    (hd : decodeStep s.settings.trackMode r = some (.cue x.1 x.2)) (hq : s.line.queue.length < 8) :
    s.issueStep k i r = ((sentCues s [x]).moveOn k, s.loopback x.1 x.2) := by
  unfold State.issueStep
  simp only [hd]
  show ((s.handOver (.cue x.1 x.2)).moveOn k, s.loopback x.1 x.2) = _
  rw [sentCues_one hq]

/-- R8, R20: a run of CUE steps, up to the state in which its slot has moved on past the last of them. -/
theorem runSteps_cues : ∀ {rest : List (Nat × Nat)} {x : Nat × Nat} {s : State} {i : Running} {e : Tick} {n : Nat}
    {loops : List Work}, s.engine.slots[k] = ⟨some i, mark⟩ → i.wait = .delaying e → e ≤ s.now →
      s.scene? i.scene = some sc → CuesAt s sc i.stepIndex (x :: rest) → s.line.queue.length + (rest.length + 1) ≤ 8 →
      rest.length < n →
      (∀ w, State.moveOn ((sentCues s (x :: rest)).setSlot k
        ⟨some { i with stepIndex := i.stepIndex + rest.length, wait := w }, mark⟩) k = v) → v.stepDue k = none →
      State.runSteps n k mark loops s = v.raise (loops ++ (x :: rest).flatMap fun y => s.loopback y.1 y.2)
  | [], x, s, i, e, n + 1, loops, hk, hw, he, hs, hc, hq, _, hend, hv => by
    obtain ⟨r, hr, hd⟩ := hc.head
    have hmove : (sentCues s [x]).moveOn k = v := by
      rw [← hend i.wait]
      exact congrArg (State.moveOn · k) (setSlot_self (s := sentCues s [x]) hk).symm
    rw [runSteps_issue (stepDue_eq (by rw [hk]) hw he hs hr) (by rw [hk]), issueStep_cue hd (by simpa using hq), hmove,
      runSteps_ends hv]
    simp
  | y :: rest, x, s, i, e, n + 1, loops, hk, hw, he, hs, hc, hq, hn, hend, hv => by
    obtain ⟨r, hr, hd⟩ := hc.head
    obtain ⟨r', hr', hz⟩ := hc.next
    simp only [List.length_cons] at hq hn
    have hmove : (sentCues s [x]).moveOn k = (sentCues s [x]).setSlot k ⟨some (movedOn s i r'), mark⟩ := by
      rw [moveOn_next (s := sentCues s [x]) (i := i) (by rw [show (sentCues s [x]).engine.slots[k] = _ from hk]) hs hr',
        show (sentCues s [x]).engine.slots[k] = _ from hk]
      rfl
    rw [runSteps_issue (stepDue_eq (by rw [hk]) hw he hs hr) (by rw [hk]), issueStep_cue hd (by omega), hmove,
      runSteps_cues (s := (sentCues s [x]).setSlot k ⟨some (movedOn s i r'), mark⟩) (i := movedOn s i r')
        (e := s.now + r'.delay) (setSlot_same _ _) rfl (by rw [hz]; exact Nat.le_refl _) hs hc.tail ?_ (by omega)
        (fun w => ?_) hv]
    · rw [List.append_assoc]
      rfl
    · show (insertTx _ s.line.queue).length + _ ≤ 8
      rw [insertTx_length]
      omega
    · rw [← hend w]
      refine congrArg (State.moveOn · k) ((setSlot_setSlot (s := sentCues s (x :: y :: rest)) _ _ _).trans ?_)
      simp only [movedOn, List.length_cons, Nat.add_assoc, Nat.add_comm 1]

/-- R9: past its last step, the running scene has finished. -/
theorem moveOn_end {i : Running} (hr : s.engine.slots[k].run = some i) (hs : s.scene? i.scene = some sc)
    (hn : sc.steps[i.stepIndex + 1]? = none) : s.moveOn k = (freed s k).raise [.retake i.scene] := by
  unfold State.moveOn
  simp only [hr, hs, Option.bind_some, hn]
  exact finishSlot_eq k i.scene

/-- What a slot held when its running scene ends is gone. -/
theorem freed_setSlot (run : Option Running) : freed (s.setSlot k ⟨run, s.engine.slots[k].mark⟩) k = freed s k := by
  simp only [freed, State.setSlot, Vector.set_set, Fin.getElem_fin, Vector.getElem_set_self]

/-- R8: a step deadline that issues a run of CUE steps. -/
theorem exec_cues {i : Running} {e : Tick} {x : Nat × Nat} {rest : List (Nat × Nat)} (hr : Ready s)
    (hrun : s.engine.slots[k].run = some i) (hs : s.scene? i.scene = some sc) (hw : i.wait = .delaying e)
    (he : e ≤ s.now) (hc : CuesAt s sc i.stepIndex (x :: rest)) (hq : s.line.queue.length + (x :: rest).length ≤ 8)
    (hend : ∀ w, State.moveOn ((sentCues s (x :: rest)).setSlot k
        ⟨some { i with stepIndex := i.stepIndex + rest.length, wait := w }, s.engine.slots[k].mark⟩) k = v)
    (hv : v.stepDue k = none) :
    exec (.stepDeadline k) s =
      event (fun _ => v.raise ((x :: rest).flatMap fun y => s.loopback y.1 y.2)) s := by
  obtain ⟨r, hst, -⟩ := hc.head
  rw [exec_stepDeadline hr (stepDue_eq hrun hw he hs hst)]
  simp only [List.length_cons] at hq
  exact event_congr (runSteps_cues (loops := []) (slot_eq_of_run hrun) hw he hs hc hq (by omega) hend hv)

theorem loopback_away {frames : List (Nat × Nat)} (h : ∀ x ∈ frames, x.1 ≠ 0 ∧ x.1 ≠ s.settings.station) :
    (frames.flatMap fun y => s.loopback y.1 y.2) = [] := by
  rw [List.flatMap_eq_nil_iff]
  intro x hx
  unfold State.loopback
  rw [if_neg]
  rintro (h0 | h0)
  · exact (h x hx).1 h0
  · exact (h x hx).2 h0

theorem loopback_here {dest tag : Nat} (h : dest = 0 ∨ dest = s.settings.station) :
    (([(dest, tag)] : List (Nat × Nat)).flatMap fun y => s.loopback y.1 y.2) =
      s.considerations (.cue s.settings.station tag) := by
  rw [List.flatMap_singleton]
  exact if_pos h

/-- Settles O23: a run of CUE steps ends at the next step of its scene, whose delay has to pass, or at the scene's end. -/
theorem stepDeadlineIssuesCue : Obligations.StepDeadlineIssuesCue := by
  intro s k i sc e hr hrun hs hw he mark sent cues away ended
  rintro frames ⟨hne, hq, hc⟩
  obtain ⟨x, rest, rfl⟩ := List.exists_cons_of_ne_nil hne
  have hset : Settled s := hr.settled
  have hsc : ∀ w, (State.setSlot (sentCues s (x :: rest)) k
      ⟨some { i with stepIndex := i.stepIndex + rest.length, wait := w }, mark⟩).scene? i.scene = some sc := fun _ => hs
  constructor
  · intro next hn hd moved
    have hend : ∀ w, State.moveOn ((sentCues s (x :: rest)).setSlot k
        ⟨some { i with stepIndex := i.stepIndex + rest.length, wait := w }, mark⟩) k = moved := fun w => by
      rw [moveOn_next (i := { i with stepIndex := i.stepIndex + rest.length, wait := w }) (by rw [setSlot_same]) (hsc w)
        hn, setSlot_same]
      exact setSlot_setSlot (s := sentCues s (x :: rest)) _ _ _
    have hv : moved.stepDue k = none :=
      stepDue_later (e := s.now + next.delay) (by rw [setSlot_same]) rfl (Nat.lt_add_of_pos_right hd)
    have hmoved : Settled moved := ⟨hset.noWorks, hset.noCheck⟩
    rw [exec_cues hr hrun hs hw he hc hq hend hv]
    refine ⟨fun haway => ?_, fun dest tag hone hdest => ?_⟩
    · rw [loopback_away haway, raise_nil]
      exact event_quiet rfl hmoved
    · rw [hone, loopback_here hdest]
      constructor
      · exact fun h => event_trigger_unbound (ev := .cue s.settings.station tag) rfl hmoved h
      · intro n sc2 first m h hst
        exact event_trigger_starts (ev := .cue s.settings.station tag) rfl hmoved h hst (by simp)
  · intro hn haway
    have hend : ∀ w, State.moveOn ((sentCues s (x :: rest)).setSlot k
        ⟨some { i with stepIndex := i.stepIndex + rest.length, wait := w }, mark⟩) k =
          (freed (sentCues s (x :: rest)) k).raise [.retake i.scene] := fun w => by
      rw [moveOn_end (i := { i with stepIndex := i.stepIndex + rest.length, wait := w }) (by rw [setSlot_same]) (hsc w)
        hn]
      exact congrArg (State.raise · _) (freed_setSlot (s := sentCues s (x :: rest)) _)
    have hv : ((freed (sentCues s (x :: rest)) k).raise [.retake i.scene]).stepDue k = none :=
      stepDue_free (freed_run _ k)
    have hfreed : Settled (freed (sentCues s (x :: rest)) k) := ⟨hset.noWorks, hset.noCheck⟩
    rw [exec_cues hr hrun hs hw he hc hq hend hv, loopback_away haway, raise_nil]
    constructor
    · refine fun hret => event_one rfl hfreed.noWorks (retake_unasked fun sc' hs' => ?_) hfreed
      rw [show sc' = sc from Option.some.inj (hs'.symm.trans hs)]
      exact hret
    · intro j first m ht hp hl hst
      have hst : Starts (freed (sentCues s (x :: rest)) k) i.scene sc first m := hst
      refine event_one rfl hfreed.noWorks ?_ ⟨hset.noWorks, hset.noCheck⟩
      show State.retake _ i.scene = _
      rw [retake_kept (s := freed (sentCues s (x :: rest)) k) hs ht hp hl, consider_starts _ hst,
        startScene_later _ _ _ hst.step hst.delay]
      rfl

end Sys2Proof.Machine
end

section
/-! Triggers that meet active scenes (R5, R6, R23, R98): refusals, restarts, preemptions and two starts at once. -/

namespace Sys2Proof.Machine

variable {s t u v : State}

/-! ## The scene that gives way -/

/-- The choice of R5 test 5 between the slots seen so far and one more. -/
def yielding (s : State) (best : Option (Fin 4 × Running)) (k : Fin 4) : Option (Fin 4 × Running) :=
  match s.engine.slots[k].run, best with
  | some i, some (_, j) => if i.yieldsBefore j then some (k, i) else best
  | some i, none => some (k, i)
  | none, _ => best

theorem victim_eq : s.victim = (List.finRange 4).foldl (yielding s) none := rfl

theorem yielding_run {best : Option (Fin 4 × Running)} {j k : Fin 4} {i : Running} (h : yielding s best j = some (k, i)) :
    best = some (k, i) ∨ (k = j ∧ s.engine.slots[j].run = some i) := by
  unfold yielding at h
  split at h
  · split at h
    · cases h
      exact .inr ⟨rfl, by assumption⟩
    · exact .inl h
  · cases h
    exact .inr ⟨rfl, by assumption⟩
  · exact .inl h

/-- Whatever is chosen is one of the instances seen, or the first choice. -/
theorem foldl_yielding_run {k : Fin 4} {i : Running} : ∀ {l : List (Fin 4)} {best : Option (Fin 4 × Running)},
    l.foldl (yielding s) best = some (k, i) → best = some (k, i) ∨ (k ∈ l ∧ s.engine.slots[k].run = some i)
  | [], _, h => .inl h
  | j :: l, best, h => by
    rcases foldl_yielding_run (l := l) h with h | ⟨hm, hr⟩
    · rcases yielding_run h with h | ⟨rfl, hr⟩
      · exact .inl h
      · exact .inr ⟨List.mem_cons_self, hr⟩
    · exact .inr ⟨List.mem_cons_of_mem _ hm, hr⟩

theorem foldl_yielding_keeps {k : Fin 4} {i : Running} : ∀ {l : List (Fin 4)},
    (∀ j ∈ l, ∀ other, s.engine.slots[j].run = some other → other.yieldsBefore i = false) →
      l.foldl (yielding s) (some (k, i)) = some (k, i)
  | [], _ => rfl
  | j :: l, h => by
    have hj : yielding s (some (k, i)) j = some (k, i) := by
      unfold yielding
      cases hr : s.engine.slots[j].run with
      | none => rfl
      | some other => simp only [h j List.mem_cons_self other hr, Bool.false_eq_true, if_false]
    rw [List.foldl_cons, hj]
    exact foldl_yielding_keeps fun m hm => h m (List.mem_cons_of_mem _ hm)

theorem finRange_split (k : Fin 4) : List.finRange 4 = (List.finRange 4).take k ++ k :: (List.finRange 4).drop (k + 1) ∧
    ∀ j ∈ (List.finRange 4).take k, j < k := by
  revert k
  decide

/-- R5 test 5: the active running scene that every other one stands behind. -/
theorem victim_first {k : Fin 4} {i : Running} (hr : s.engine.slots[k].run = some i)
    (h : ∀ (j : Fin 4) other, s.engine.slots[j].run = some other →
      other.yieldsBefore i = false ∧ (j < k → i.yieldsBefore other = true)) : s.victim = some (k, i) := by
  obtain ⟨hsplit, hlt⟩ := finRange_split k
  rw [victim_eq, hsplit, List.foldl_append, List.foldl_cons]
  have hk : yielding s (List.foldl (yielding s) none ((List.finRange 4).take k)) k = some (k, i) := by
    cases hb : List.foldl (yielding s) none ((List.finRange 4).take k) with
    | none =>
      unfold yielding
      rw [hr]
    | some b =>
      obtain ⟨m, other⟩ := b
      rcases foldl_yielding_run hb with h' | ⟨hm, hother⟩
      · cases h'
      · unfold yielding
        rw [hr]
        exact if_pos ((h m other hother).2 (hlt m hm))
  rw [hk]
  exact foldl_yielding_keeps fun j _ other ho => (h j other ho).1

theorem victim_run {k : Fin 4} {i : Running} (h : s.victim = some (k, i)) : s.engine.slots[k].run = some i := by
  rcases foldl_yielding_run (victim_eq (s := s) ▸ h) with h | ⟨-, h⟩
  · cases h
  · exact h

/-- The lowest slot that a scene is active in. -/
theorem activeSlot_lowest {n : Fin 64} {k : Fin 4} {run : Running} (hr : s.engine.slots[k].run = some run)
    (hn : run.scene = n) (hl : ∀ (j : Fin 4) other, j < k → s.engine.slots[j].run = some other → other.scene ≠ n) :
    s.activeSlot n = some k :=
  find_lowest_slot _ k (by simp only [hr, hn, beq_self_eq_true]) fun j hj => by
    split
    · rename_i i hi
      simpa using hl j i hj hi
    · rfl

/-! ## The tests -/

/-- A scene passes the tests of R5 that do not look at the slots. -/
def OpenTo (s : State) (n : Fin 64) (sc : Scene) : Prop :=
  s.halt = none ∧ (sc.needsPresence = true → 0 < s.inputs.occupancy) ∧ s.engine.cooldowns[n] = none

section

variable {n : Fin 64} {sc : Scene} {ev : TriggerEvent} {k : Fin 4}

theorem OpenTo.visitors (h : OpenTo s n sc) : (sc.needsPresence && s.inputs.occupancy == 0) = false := by
  cases hp : sc.needsPresence
  · rfl
  · have := h.2.1 hp
    simp; omega

/-- R5 test 4: an active scene under RESTART. -/
theorem consider_restart (hs : s.scene? n = some sc) (h : OpenTo s n sc) (ha : s.activeSlot n = some k)
    (hp : sc.policy = .restart) : s.consider ev n = (s.cancelSlot k .restarted).startScene k n sc ev := by
  unfold State.consider
  simp only [hs, State.halted, h.1, h.visitors, h.2.2, Option.isSome_none, Bool.false_eq_true, if_false, ha, hp, if_true]

theorem consider_inactive (hs : s.scene? n = some sc) (h : OpenTo s n sc) (ha : s.activeSlot n = none) :
    s.consider ev n = s.placeScene n sc ev := by
  unfold State.consider
  simp only [hs, State.halted, h.1, h.visitors, h.2.2, Option.isSome_none, Bool.false_eq_true, if_false, ha]

/-- R5 tests 1 to 3: the station is HALTED, the scene needs a visitor and none is there, or it is cooling down. -/
theorem consider_closed (hev : ∀ i, ev ≠ .input i) (hs : s.scene? n = some sc) (h : ¬OpenTo s n sc) :
    s.consider ev n = s := by
  by_cases hh : s.halt = none
  · unfold State.consider
    simp only [hs, State.halted, hh, Option.isSome_none, Bool.false_eq_true, if_false]
    split
    · rfl
    · rename_i hv
      rw [if_pos]
      rw [Option.isSome_iff_ne_none]
      refine fun hc => h ⟨hh, fun hp => ?_, hc⟩
      rw [hp] at hv
      simpa [Nat.pos_iff_ne_zero] using hv
  · rw [consider_halted ev hh hs]
    cases ev with
    | input i => exact absurd rfl (hev i)
    | _ => rfl

theorem freeSlot_none (h : ∀ j : Fin 4, s.engine.slots[j].run ≠ none) : s.freeSlot = none :=
  find_no_slot _ fun j => by
    simpa only [Option.isNone_eq_false_iff, Option.isSome_iff_ne_none] using h j

/-- R5 test 5: every slot runs another scene of at least its priority. -/
theorem consider_full (hs : s.scene? n = some sc) (ho : OpenTo s n sc)
    (h : ∀ j : Fin 4, ∃ run, s.engine.slots[j].run = some run ∧ run.scene ≠ n ∧ sc.priority ≤ run.priority) :
    s.consider ev n = s := by
  have ha : s.activeSlot n = none := activeSlot_none fun j run hr => by
    obtain ⟨run', hr', hne, -⟩ := h j
    rw [hr'] at hr
    exact Option.some.inj hr ▸ hne
  have hf : s.freeSlot = none := freeSlot_none fun j => by
    obtain ⟨run, hr, -⟩ := h j
    rw [hr]
    exact Option.some_ne_none run
  rw [consider_inactive hs ho ha]
  unfold State.placeScene
  rw [hf]
  cases hv : s.victim with
  | none => rfl
  | some b =>
    obtain ⟨m, i⟩ := b
    refine if_neg ?_
    obtain ⟨run, hr, -, hp⟩ := h m
    have hi := victim_run hv
    rw [hr] at hi
    exact Option.some.inj hi ▸ Nat.not_lt.2 hp

/-- R5 test 5: with no slot FREE, the scene that gives way first is preempted by one of higher priority. -/
theorem consider_preempts {run : Running} (hs : s.scene? n = some sc) (ho : OpenTo s n sc)
    (ha : ∀ (j : Fin 4) run, s.engine.slots[j].run = some run → run.scene ≠ n)
    (hf : ∀ j : Fin 4, s.engine.slots[j].run ≠ none) (hv : s.victim = some (k, run)) (hp : run.priority < sc.priority) :
    s.consider ev n = ((s.cancelSlot k .preempted).startScene k n sc ev).raise [.retake run.scene] := by
  rw [consider_inactive hs ho (activeSlot_none ha)]
  unfold State.placeScene
  rw [freeSlot_none hf, hv]
  exact if_pos hp

/-! ## A start in a slot that runs a scene -/

/-- R89, R98: what the cancel of a running scene does to the player. -/
theorem cancelNarration_player (s : State) (k : Fin 4) (mark : BitVec 8) :
    (s.cancelNarration k mark).player.queue = (s.player.queue.filter fun e => !(e.slot == k && e.mark == mark)) ∧
    ∀ e, s.player.current = some e → e.slot = k → e.mark = mark →
      s.player.state = .playing ∨ s.player.state = .settling →
      (s.cancelNarration k mark).player.state = .fadingOut ∧
        (s.cancelNarration k mark).player.fadeOutStart = some s.now := by
  unfold State.cancelNarration
  constructor
  · simp only []
    split
    · split
      · split <;> rfl
      · rfl
    · rfl
  · intro e hc hk hm hst
    simp only [hc, hk, hm, and_self, if_true]
    rcases hst with hst | hst <;> simp only [hst, and_self]

/-- R5, R7, R23: a scene with a delay before its first step started in the slot of a running scene that is cancelled. -/
theorem cancel_start {run : Running} {why : CancelReason} {first : StepRecord} (hr : s.engine.slots[k].run = some run)
    (hw : why = .restarted ∨ why = .preempted) (ht : s.engine.trackRequester ≠ some ⟨k, s.engine.slots[k].mark⟩)
    (hev : ∀ i, ev ≠ .input i) (hf : sc.steps[0]? = some first) (hd : 0 < first.delay) :
    (s.cancelSlot k why).startScene k n sc ev =
      startedIn (freed { s with player := (s.cancelNarration k s.engine.slots[k].mark).player } k) n sc first k := by
  obtain ⟨p, hp, hc⟩ := cancelSlot_other (why := why) hr (by rcases hw with rfl | rfl <;> decide) ht
  rw [hc, if_neg (by rcases hw with rfl | rfl <;> decide), startScene_later _ _ _ hf hd, hp]
  cases ev with
  | input i => exact absurd rfl (hev i)
  | _ => rfl

end

/-- An event that raises one work, whose own works change nothing. -/
theorem event_one_idle {body : State → State} {w : Work} {ws : List Work} (hb : body s = u.raise [w])
    (hu : u.works = []) (ht : u.take w = v.raise ws) (hv : Settled v) (hws : ∀ x ∈ ws, v.take x = v)
    (hl : ws.length ≤ 100) : event body s = .next v := by
  have hidle := settle_idle (s := v) (ws := ws) (by rw [withWorks_self hv.noWorks]; exact hws)
  rw [withWorks_self hv.noWorks] at hidle
  have hsettle : State.settle (ws.length + 1) (u.raise [w]) = some v := by
    rw [raise_of_none _ hu, settle_cons _ rfl, withWorks_withWorks, withWorks_self hu, ht, raise_of_none _ hv.noWorks,
      works_withWorks, withWorks_withWorks, List.append_nil]
    exact hidle
  rw [event_ends hb hsettle (by omega), announce_none hv.noCheck]

/-- A CUE that one scene is bound to, when taking its trigger ends in a state with works that change nothing. -/
theorem exec_cue_bound {f : Frame} {n : Fin 64} {ws : List Work} (h : Hears s .cue f)
    (hd : f.byte 0 = 0 ∨ f.byte 0 = s.settings.station)
    (hc : s.considerations (.cue f.source (f.byte 1)) = [.consider (.cue f.source (f.byte 1)) n])
    (ht : (s.hearPeer f.source).consider (.cue f.source (f.byte 1)) n = v.raise ws) (hv : Settled v)
    (hws : ∀ x ∈ ws, v.take x = v) (hl : ws.length ≤ 100) : exec (.cueReceived f) s = .next v :=
  event_one_idle ((cue_body h hd).trans (congrArg (State.raise _) hc)) (hears_hearPeer h _).noWorks ht hv hws hl

/-- R5 test 5, in the order of the slots: the running scene that gives way first. -/
theorem yieldsBefore_order {k j : Fin 4} {run other : Running}
    (h : run.priority < other.priority ∨ (run.priority = other.priority ∧
      (run.startTime < other.startTime ∨ (run.startTime = other.startTime ∧ k ≤ j)))) :
    other.yieldsBefore run = false ∧ (j < k → run.yieldsBefore other = true) := by
  constructor
  · simp only [Running.yieldsBefore, Bool.or_eq_false_iff, Bool.and_eq_false_iff, decide_eq_false_iff_not, beq_eq_false_iff_ne]
    unfold Tick at *
    omega
  · simp only [Running.yieldsBefore, Bool.or_eq_true, Bool.and_eq_true, decide_eq_true_eq, beq_iff_eq]
    unfold Tick at *
    omega

/-- Two scenes bound to one CUE that the tests let start. -/
theorem settle_two_starts {ev : TriggerEvent} {n n2 : Fin 64} {sc sc2 : Scene} {first first2 : StepRecord} {k k2 : Fin 4}
    (hev : ∀ i, ev ≠ .input i) (hw : u.works = []) (h : Starts u n sc first k)
    (h2 : Starts (startedIn u n sc first k) n2 sc2 first2 k2) :
    State.settle 2 (u.raise [.consider ev n, .consider ev n2]) =
      some (startedIn (startedIn u n sc first k) n2 sc2 first2 k2) := by
  rw [raise_of_none _ hw]
  refine settle_append (n := 1) (m := 1) (t := startedIn u n sc first k) (ws := [_]) (rest := [_])
    (settle_one ?_ hw) (settle_one ?_ hw)
  · rw [withWorks_self hw]
    exact take_consider_starts ev h hev
  · rw [withWorks_self (s := startedIn u n sc first k) hw]
    exact take_consider_starts ev h2 hev

/-- Settles O20: each refused trigger changes nothing; a restart and a preemption cancel and start in one slot; of two
scenes the lower one starts first. -/
theorem triggersMeetActiveScenes : Obligations.TriggersMeetActiveScenes := by
  intro s f n sc first h hd hs hf hdel u ev cooled started inactive open_
  have hu : Settled u := hears_hearPeer h _
  have hev : ∀ i, ev ≠ .input i := by simp [ev]
  refine ⟨fun hc => ⟨fun hno => ?_, ?_⟩, ?_⟩
  · refine exec_cue_bound (v := u) (ws := []) h hd hc ?_ hu (by simp) (by simp)
    rw [raise_nil]
    by_cases ho : OpenTo u n sc
    · obtain hno | ⟨hact, hp⟩ | hfull := hno
      · exact absurd ho hno
      · simp only [inactive, not_forall, not_not] at hact
        obtain ⟨j, run, hr, hsc⟩ := hact
        exact consider_active (s := u) ev ho.1 hs ⟨j, run, hr, hsc⟩ hp
      · exact consider_full (s := u) hs ho hfull
    · exact consider_closed (s := u) hev hs ho
  · intro k run ho hrun hwins mark ht
    have ho : OpenTo u n sc := ho
    generalize hp : (u.cancelNarration k mark).player = p
    have hcancel : ∀ why, why = .restarted ∨ why = .preempted →
        (u.cancelSlot k why).startScene k n sc ev = startedIn (freed { u with player := p } k) n sc first k :=
      fun why hw => by
        rw [← hp]
        exact cancel_start (s := u) hrun hw ht hev hf hdel
    have hexec : exec (.cueReceived f) s = .next (startedIn (freed { u with player := p } k) n sc first k) := by
      rcases hwins with ⟨hrn, hpol, hlow⟩ | ⟨hi, hprio, hfirst, hret⟩
      · refine exec_cue_bound (ws := []) h hd hc ?_ ⟨hu.noWorks, hu.noCheck⟩ (by simp) (by simp)
        have hact : u.activeSlot n = some k :=
          activeSlot_lowest (s := u) hrun hrn hlow
        rw [consider_restart (s := u) hs ho hact hpol, raise_nil]
        exact hcancel _ (.inl rfl)
      · refine exec_cue_bound (ws := [.retake run.scene]) h hd hc ?_ ⟨hu.noWorks, hu.noCheck⟩ (fun x hx => ?_) (by simp)
        · have hv : u.victim = some (k, run) := victim_first hrun fun j other hj => by
            obtain ⟨other', hj', hord⟩ := hfirst j
            have : other' = other := Option.some.inj (hj'.symm.trans hj)
            exact yieldsBefore_order (this ▸ hord)
          rw [consider_preempts (s := u) hs ho hi (fun j => ?_) hv hprio, hcancel _ (.inr rfl)]
          obtain ⟨other, hj, -⟩ := hfirst j
          rw [show u.engine.slots[j].run = some other from hj]
          exact Option.some_ne_none other
        · rw [List.mem_singleton.1 hx]
          exact retake_unasked fun x hx i => hret x i hx
    refine ⟨_, hexec, ?_, fun j hj => ?_, ?_, fun _ _ => freed_channelOwner (s := { u with player := p }),
      fun _ _ => freed_driveOwner (s := { u with player := p }), ?_, fun e he hk hm hst => ?_, rfl, rfl, rfl⟩
    · refine (setSlot_same _ _).trans ?_
      rw [show (freed { u with player := p } k).engine.slots[k] = _ from setSlot_same _ _]
      rfl
    · exact (setSlot_other _ hj).trans (setSlot_other _ hj)
    · exact Vector.getElem_set_self _
    · show p.queue = _
      rw [← hp]
      exact (cancelNarration_player u k mark).1
    · show p.state = _ ∧ p.fadeOutStart = _
      rw [← hp]
      exact (cancelNarration_player u k mark).2 e he hk hm hst
  · intro n2 sc2 first2 k k2 hc hs2 hf2 hd2 ho ho2 hi hi2 hk hfree hfree2 hlow
    have hlt := considerations_pair hc
    have hst : Starts u n sc first k := ⟨hs, hf, hdel, ho.1, ho.2.1, ho.2.2, hi, hfree, fun j hj =>
      hlow j (hj.trans hk) hj.ne⟩
    have hslot : ∀ j : Fin 4, j ≠ k → (startedIn u n sc first k).engine.slots[j] = s.engine.slots[j] :=
      fun j hj => setSlot_other _ hj
    have hst2 : Starts (startedIn u n sc first k) n2 sc2 first2 k2 := by
      refine ⟨hs2, hf2, hd2, ho2.1, ho2.2.1, ?_, fun j run hr => ?_, ?_, fun j hj => ?_⟩
      · exact (Vector.getElem_set_ne n.isLt n2.isLt fun hv => hlt.ne (Fin.ext hv)).trans ho2.2.2
      · by_cases hj : j = k
        · subst hj
          rw [show (startedIn u n sc first j).engine.slots[j] = _ from setSlot_same _ _] at hr
          exact Option.some.inj hr ▸ hlt.ne
        · exact hi2 j run (hslot j hj ▸ hr)
      · rw [hslot k2 hk.ne']
        exact hfree2
      · by_cases hjk : j = k
        · subst hjk
          rw [show (startedIn u n sc first j).engine.slots[j] = _ from setSlot_same _ _]
          exact Option.some_ne_none _
        · rw [hslot j hjk]
          exact hlow j hj hjk
    refine ⟨hlt, ?_⟩
    have hends := settle_two_starts hev hu.noWorks hst hst2
    rw [show exec (.cueReceived f) s = event _ s from rfl,
      event_ends ((cue_body h hd).trans (congrArg (State.raise _) hc)) hends (by decide),
      announce_none (s := startedIn (startedIn u n sc first k) n2 sc2 first2 k2) hu.noCheck]
    show Host.Outcome.next (State.setSlot _ k2 ⟨_, (startedIn u n sc first k).engine.slots[k2].mark + 1⟩) = _
    rw [hslot k2 hk.ne']
    rfl

end Sys2Proof.Machine
end

section
/-! FADE steps (R11 to R13, R19, R43): the channels they take, and the AWAITs they end. -/

namespace Sys2Proof.Machine

variable {s t u v : State}

/-! ## Ownership -/

theorem mayTake_iff {owner : Option Owner} {k : Fin 4} {priority : Nat} {finished : Bool} :
    mayTake owner k priority finished = true ↔
      ∀ o, owner = some o → o.slot = k ∨ o.priority ≤ priority ∨ finished = true := by
  unfold mayTake
  cases owner <;> simp [or_assoc]

/-! ## Whose AWAIT has ended -/

theorem endAwait_frame (s : State) (subject : Subject) (out : AwaitOutcome) (k : Fin 4) :
    ∃ slots works, s.endAwait subject out k = { s with engine.slots := slots, works := works } := by
  unfold State.endAwait
  split
  · split
    · exact ⟨_, _, rfl⟩
    · exact ⟨s.engine.slots, s.works, rfl⟩
  · exact ⟨s.engine.slots, s.works, rfl⟩

/-- Of the slots of `s`, one has had its AWAIT ended without failing when `p` holds, and none otherwise. -/
def Ended (s : State) (j : Fin 4) (p : Prop) (t : State) : Prop :=
  (p ∧ ∃ i out, s.engine.slots[j].run = some i ∧ out ≠ .failed ∧
    t.engine.slots =
      (s.setSlot j ⟨some { i with wait := .completed out }, s.engine.slots[j].mark⟩).engine.slots ∧
    t.works = [.awaitDone j s.engine.slots[j].mark]) ∨
  (¬p ∧ t.engine.slots = s.engine.slots ∧ t.works = [])

namespace Ended

variable {j : Fin 4} {p : Prop}

theorem congr (h : Ended s j p t) {q : Prop} (hp : p ↔ q) (hs : u.engine.slots = t.engine.slots)
    (hw : u.works = t.works) : Ended s j q u := by
  unfold Ended
  rw [hs, hw, ← hp]
  exact h

theorem slot_other (h : Ended s j p t) {m : Fin 4} (hm : m ≠ j) : t.engine.slots[m] = s.engine.slots[m] := by
  obtain ⟨-, i, out, -, -, hs, -⟩ | ⟨-, hs, -⟩ := h
  · rw [hs]
    exact setSlot_other _ hm
  · rw [hs]

/-- An AWAIT that has ended is over. -/
theorem awaits (h : Ended s j p t) {m : Fin 4} {subject : Subject} (ha : t.engine.slots[m].awaits subject = true) :
    s.engine.slots[m].awaits subject = true ∧ (m = j → ¬p) := by
  obtain ⟨hp, i, out, -, -, hs, -⟩ | ⟨hp, hs, -⟩ := h
  · by_cases hm : m = j
    · subst hm
      rw [hs, setSlot_same] at ha
      simp [Slot.awaits] at ha
    · rw [hs, setSlot_other _ hm] at ha
      exact ⟨ha, fun h => absurd h hm⟩
  · rw [hs] at ha
    exact ⟨ha, fun _ => hp⟩

/-- One more AWAIT on a subject ends. -/
theorem endAwait (h : Ended s j p t) (subject : Subject) {out : AwaitOutcome} (ho : out ≠ .failed) :
    Ended s j (p ∨ s.engine.slots[j].awaits subject = true) (t.endAwait subject out j) := by
  by_cases ha : t.engine.slots[j].awaits subject = true
  · obtain ⟨hs, hp⟩ := h.awaits ha
    obtain ⟨hp', -⟩ | ⟨-, hslots, hworks⟩ := h
    · exact absurd hp' (hp rfl)
    · have hrun : ∃ i, s.engine.slots[j].run = some i := by
        unfold Slot.awaits at hs
        cases hr : s.engine.slots[j].run with
        | none => rw [hr] at hs; cases hs
        | some i => exact ⟨i, rfl⟩
      obtain ⟨i, hi⟩ := hrun
      have hti : t.engine.slots[j].run = some i := by rw [hslots]; exact hi
      refine .inl ⟨.inr hs, i, out, hi, ho, ?_, ?_⟩
      · rw [endAwait_awaits out hti ha, hslots]
        show (t.setSlot j _).engine.slots = _
        simp only [State.setSlot, hslots]
      · rw [endAwait_awaits out hti ha, hslots, raise_of_none _ (by exact hworks)]
        rfl
  · rw [endAwait_not out (Bool.eq_false_iff.2 ha)]
    refine h.congr ⟨.inl, fun hp => hp.elim id fun hs => ?_⟩ rfl rfl
    obtain ⟨hp, -⟩ | ⟨-, hslots, -⟩ := h
    · exact hp
    · rw [hslots] at ha
      exact absurd hs ha

/-- One more AWAIT on a subject ends, when a condition holds. -/
theorem endAwait_if (h : Ended s j p t) (q : Prop) [Decidable q] (subject : Subject) {out : AwaitOutcome}
    (ho : out ≠ .failed) :
    Ended s j (p ∨ (q ∧ s.engine.slots[j].awaits subject = true)) (if q then t.endAwait subject out j else t) := by
  split
  · rename_i hq
    exact (h.endAwait subject ho).congr (or_congr_right (and_iff_right hq).symm) rfl rfl
  · rename_i hq
    exact h.congr (or_iff_left fun hx => hq hx.1).symm rfl rfl

/-- A change of another slot. -/
theorem setSlot (h : Ended s j p t) {k : Fin 4} (hk : j ≠ k) (r : Slot) :
    Ended (s.setSlot k r) j p (t.setSlot k r) := by
  have hv : (j : Nat) ≠ k := fun h => hk (Fin.ext h)
  obtain ⟨hp, i, out, hi, ho, hs, hw⟩ | ⟨hp, hs, hw⟩ := h
  · refine .inl ⟨hp, i, out, by rw [setSlot_other _ hk]; exact hi, ho, ?_, by rw [setSlot_other _ hk]; exact hw⟩
    rw [setSlot_other _ hk]
    show t.engine.slots.set k r k.isLt = (s.engine.slots.set k r k.isLt).set j _ j.isLt
    rw [hs, Vector.set_comm _ _ hv.symm]
    rfl
  · exact .inr ⟨hp, congrArg (fun v : Vector Slot 4 => v.set k r k.isLt) hs, hw⟩

end Ended

theorem endAwait_if_frame (t : State) (q : Prop) [Decidable q] (subject : Subject) (out : AwaitOutcome) (k : Fin 4) :
    ∃ slots works, (if q then t.endAwait subject out k else t) = { t with engine.slots := slots, works := works } := by
  split
  · exact endAwait_frame _ _ _ _
  · exact ⟨t.engine.slots, t.works, rfl⟩

/-- When no other slot waits on it, a completion of a subject among some slots is the end of one AWAIT. -/
theorem foldl_endAwait {subject : Subject} {out : AwaitOutcome} {j : Fin 4} {l : List (Fin 4)} (hl : l.Nodup)
    (hj : j ∈ l) (h : ∀ m : Fin 4, t.engine.slots[m].awaits subject = true → m = j) :
    l.foldl (fun t m => t.endAwait subject out m) t = t.endAwait subject out j :=
  endAwaits_alone out hl hj fun m _ hm => Bool.eq_false_iff.2 fun ha => hm (h m ha)

theorem preemptAwaits_eq {subject : Subject} {j k : Fin 4} (hj : j ≠ k)
    (h : ∀ m : Fin 4, t.engine.slots[m].awaits subject = true → m = j) :
    t.preemptAwaits k subject = t.endAwait subject .preempted j :=
  foldl_endAwait ((List.nodup_finRange 4).filter _) (by simpa using hj) h

theorem completeAwaits_eq {subject : Subject} {out : AwaitOutcome} {j : Fin 4}
    (h : ∀ m : Fin 4, t.engine.slots[m].awaits subject = true → m = j) :
    t.completeAwaits subject out = t.endAwait subject out j :=
  foldl_endAwait (List.nodup_finRange 4) (List.mem_finRange j) h

/-- R19: a slot whose AWAIT has ended goes on, and the others stand as they are. -/
theorem Ended.settle {j : Fin 4} {p : Prop} (h : Ended s j p t) :
    (¬p → State.settle 1 t = some t) ∧
    ∀ i next subject, p → AwaitsNext s j i subject next → t.engine.scenes = s.engine.scenes → t.now = s.now →
      State.settle 1 t =
        some (withWorks (t.setSlot j ⟨some (movedOn s i next), s.engine.slots[j].mark⟩) []) := by
  obtain ⟨hp, i', out, hi, ho, hslots, hworks⟩ | ⟨hp, -, hworks⟩ := h
  · refine ⟨fun h => absurd hp h, fun i next subject _ ha hsc hnow => ?_⟩
    obtain ⟨sc, hs, hn⟩ := ha.step
    obtain rfl : i = i' := Option.some.inj (ha.run.symm.trans hi)
    have hk : t.engine.slots[j] = ⟨some { i with wait := .completed out }, s.engine.slots[j].mark⟩ := by
      rw [hslots]
      exact setSlot_same _ _
    rw [settle_completed hk hworks ho (sc := sc) (next := next) (by rw [← hs]; unfold State.scene?; rw [hsc]) hn ha.delay]
    unfold movedOn
    rw [hnow]
  · exact ⟨fun _ => settle_done 1 hworks, fun _ _ _ h => absurd h hp⟩

/-! ## One channel -/

/-- What a FADE step of slot `k` sets each channel it takes to: target and length within their bounds. -/
structure FadeSpec where
  k : Fin 4
  priority : Nat
  set : BitVec 12
  target : Nat
  steps : Nat

namespace FadeSpec

/-- R13: whether the step takes a channel. -/
def Takes (f : FadeSpec) (s : State) (c : Fin 12) : Prop :=
  f.set.getLsbD c.val = true ∧ s.settings.channels[c].rating ≠ 0 ∧
    ∀ o, s.engine.channelOwners[c] = some o → o.slot = f.k ∨ o.priority ≤ f.priority ∨ s.lamps[c].fading = false

/-- R19, R45: whether taking the channel ends the AWAIT of slot `j`. -/
def Ends (f : FadeSpec) (s : State) (j : Fin 4) (c : Fin 12) : Prop :=
  f.Takes s c ∧ s.engine.slots[j].awaits (.fade c) = true ∧ (OtherOwns s.engine.channelOwners[c] f.k ∨ f.steps = 0)

/-- The lamp record of a channel that has been taken (R43). -/
def lamp (f : FadeSpec) (s : State) (c : Fin 12) : Lamp :=
  s.lamps[c].startFade f.target f.steps (some ⟨f.k, s.engine.slots[f.k].mark⟩) s.now

/-- The state with the channels of a list done, of those that the FADE step takes. -/
structure Done (f : FadeSpec) (s : State) (j : Fin 4) (l : List (Fin 12)) (t : State) : Prop where
  rest : ∃ lamps share check owners slots works, t =
    { s with
      lamps := lamps, share := share, announceCheck := check, engine.channelOwners := owners, engine.slots := slots
      works := works }
  admissions : t.share.admissions = s.share.admissions
  taken : ∀ c ∈ l, f.Takes s c → t.engine.channelOwners[c] = some ⟨f.k, f.priority⟩ ∧
    t.lamps[c] = { f.lamp s c with output := t.lamps[c].output }
  left : ∀ c, (c ∈ l → ¬f.Takes s c) → t.engine.channelOwners[c] = s.engine.channelOwners[c] ∧
    t.lamps[c] = { s.lamps[c] with output := t.lamps[c].output }
  ended : Ended s j (∃ c ∈ l, f.Ends s j c) t

variable {f : FadeSpec} {j : Fin 4} {l : List (Fin 12)} {c : Fin 12}

namespace Done

theorem start (f : FadeSpec) (j : Fin 4) (hw : s.works = []) : f.Done s j [] s where
  rest := ⟨_, _, _, _, _, _, rfl⟩
  admissions := rfl
  taken _ h := absurd h List.not_mem_nil
  left _ _ := ⟨rfl, rfl⟩
  ended := .inr ⟨by simp, rfl, hw⟩

theorem settings (h : f.Done s j l t) : t.settings = s.settings := by
  obtain ⟨_, _, _, _, _, _, ht⟩ := h.rest
  rw [ht]

theorem clockMs (h : f.Done s j l t) : t.clockMs = s.clockMs := by
  obtain ⟨_, _, _, _, _, _, ht⟩ := h.rest
  rw [ht]

theorem halt (h : f.Done s j l t) : t.halt = s.halt := by
  obtain ⟨_, _, _, _, _, _, ht⟩ := h.rest
  rw [ht]

theorem scenes (h : f.Done s j l t) : t.engine.scenes = s.engine.scenes := by
  obtain ⟨_, _, _, _, _, _, ht⟩ := h.rest
  rw [ht]

theorem nothingWaits (h : f.Done s j l t) (hn : NothingWaits s) : NothingWaits t := by
  refine hn.imp (fun hh => ?_) fun ha => h.admissions.trans ha
  unfold State.halted
  rw [h.halt]
  exact hh

/-- A channel that the step does not take is passed over. -/
theorem skip (h : f.Done s j l t) (hc : ¬f.Takes s c) : f.Done s j (l ++ [c]) t where
  rest := h.rest
  admissions := h.admissions
  taken m hm ht := by
    rcases List.mem_append.1 hm with hm | hm
    · exact h.taken m hm ht
    · rw [List.mem_singleton.1 hm] at ht
      exact absurd ht hc
  left m hm := h.left m fun hl => hm (List.mem_append_left _ hl)
  ended := h.ended.congr (by simp [Ends, hc]) rfl rfl

/-- Whether the step finds that it may take a channel, when the channels before it are done. -/
theorem mayTake_iff_takes (h : f.Done s j l t) (hc : c ∉ l) (hset : f.set.getLsbD c.val = true) :
    (t.used c && mayTake t.engine.channelOwners[c] f.k f.priority (!t.lamps[c].fading)) = true ↔ f.Takes s c := by
  obtain ⟨ho, hl⟩ := h.left c fun hm => absurd hm hc
  have hf : t.lamps[c].fading = s.lamps[c].fading := by rw [hl]
  unfold State.used Takes
  rw [Bool.and_eq_true, mayTake_iff, h.settings, ho, hf]
  simp [hset]

end Done

/-- R13, R43: a channel that the step takes, in its parts: the AWAIT that its takeover ends, its owner and its fade, the
output levels, and the AWAIT that a fade of length 0 ends. -/
theorem fadeChannel_taken (h : f.Done s j l t) (hc : c ∉ l) (hj : j ≠ f.k)
    (ha : ∀ (m : Fin 4) (c2 : Fin 12), s.engine.slots[m].awaits (.fade c2) = true → m = j) (ht : f.Takes s c)
    (hu : (if isTakeover s.engine.channelOwners[c] f.k = true then t.endAwait (.fade c) .preempted j else t) = u)
    (hv : ((u.setChannelOwner c (some ⟨f.k, f.priority⟩)).setLamp c
      { f.lamp s c with output := t.lamps[c].output }).lampChanged = v)
    (hslots : v.engine.slots = u.engine.slots) :
    t.fadeChannel f.k f.priority f.target f.steps c = if f.steps = 0 then v.endAwait (.fade c) .done j else v := by
  obtain ⟨howner, hlamp⟩ := h.left c fun hm => absurd hm hc
  have hk : t.engine.slots[f.k] = s.engine.slots[f.k] := h.ended.slot_other hj.symm
  have halone : ∀ m : Fin 4, t.engine.slots[m].awaits (.fade c) = true → m = j := fun m hm =>
    ha m c (h.ended.awaits hm).1
  have hpre : (if isTakeover t.engine.channelOwners[c] f.k = true then t.preemptAwaits f.k (.fade c) else t) = u := by
    rw [preemptAwaits_eq hj halone, howner, hu]
  have he := h.ended.endAwait_if (isTakeover s.engine.channelOwners[c] f.k = true) (.fade c) (out := .preempted) (by decide)
  obtain ⟨slots, works, hf⟩ := endAwait_if_frame t (isTakeover s.engine.channelOwners[c] f.k = true) (.fade c) .preempted j
  rw [hu] at he hf
  have hfade : ((u.setChannelOwner c (some ⟨f.k, f.priority⟩)).setLamp c
      ((u.setChannelOwner c (some ⟨f.k, f.priority⟩)).lamps[c].startFade f.target f.steps
        (some ⟨f.k, t.engine.slots[f.k].mark⟩) (u.setChannelOwner c (some ⟨f.k, f.priority⟩)).now)).lampChanged = v := by
    rw [← hv, hk, show (u.setChannelOwner c (some ⟨f.k, f.priority⟩)).lamps = t.lamps by rw [hf]; rfl, hlamp,
      show (u.setChannelOwner c (some ⟨f.k, f.priority⟩)).now = s.now by rw [hf]; exact congrArg (· / 10) h.clockMs]
    rfl
  have hused : (u.setChannelOwner c (some ⟨f.k, f.priority⟩)).used c = true := by
    unfold State.used
    rw [show (u.setChannelOwner c (some ⟨f.k, f.priority⟩)).settings = s.settings by rw [hf]; exact h.settings]
    simpa using ht.2.1
  unfold State.fadeChannel
  simp only []
  rw [if_pos ((h.mayTake_iff_takes hc ht.1).2 ht), hpre]
  unfold State.startFade
  rw [if_pos hused]
  simp only []
  rw [hfade, completeAwaits_eq fun m hm => ha m c (he.awaits (by rwa [hslots] at hm)).1]

/-- R13: what taking a channel changes. -/
theorem fadeChannel_frame (h : f.Done s j l t) (hc : c ∉ l) (hj : j ≠ f.k) (hn : NothingWaits s)
    (ha : ∀ (m : Fin 4) (c2 : Fin 12), s.engine.slots[m].awaits (.fade c2) = true → m = j) (ht : f.Takes s c) :
    ∃ lamps share check slots works, t.fadeChannel f.k f.priority f.target f.steps c =
        { t.setChannelOwner c (some ⟨f.k, f.priority⟩) with
          lamps := lamps, share := share, announceCheck := check, engine.slots := slots, works := works } ∧
      OutputsOnly (t.setLamp c { f.lamp s c with output := t.lamps[c].output }).lamps lamps ∧
      share.admissions = t.share.admissions ∧
      Ended s j (((∃ m ∈ l, f.Ends s j m) ∨
          (isTakeover s.engine.channelOwners[c] f.k = true ∧ s.engine.slots[j].awaits (.fade c) = true)) ∨
          (f.steps = 0 ∧ s.engine.slots[j].awaits (.fade c) = true))
        (t.fadeChannel f.k f.priority f.target f.steps c) := by
  have he := h.ended.endAwait_if (isTakeover s.engine.channelOwners[c] f.k = true) (.fade c) (out := .preempted) (by decide)
  obtain ⟨slots, works, hu⟩ := endAwait_if_frame t (isTakeover s.engine.channelOwners[c] f.k = true) (.fade c) .preempted j
  have hstep := fun v hv => fadeChannel_taken (v := v) h hc hj ha ht rfl hv
  generalize (if isTakeover s.engine.channelOwners[c] f.k = true then t.endAwait (.fade c) .preempted j else t) = u
    at he hu hstep
  have hwait : NothingWaits ((u.setChannelOwner c (some ⟨f.k, f.priority⟩)).setLamp c
      { f.lamp s c with output := t.lamps[c].output }) := by
    rw [hu]
    exact h.nothingWaits hn
  obtain ⟨lamps, share, check, hv, hout, -, hadm⟩ := lampChanged_frame hwait
  rw [hstep _ hv rfl]
  generalize hv' : ({ (u.setChannelOwner c (some ⟨f.k, f.priority⟩)).setLamp c
      { f.lamp s c with output := t.lamps[c].output } with
        lamps := lamps, share := share, announceCheck := check } : State) = v
  have he' : Ended s j _ v := he.congr Iff.rfl (by rw [← hv']; rfl) (by rw [← hv']; rfl)
  obtain ⟨slots', works', hw⟩ := endAwait_if_frame v (f.steps = 0) (.fade c) .done j
  refine ⟨lamps, share, check, slots', works', ?_, ?_, ?_, he'.endAwait_if (f.steps = 0) (.fade c) (by decide)⟩
  · rw [hw, ← hv', hu]
    rfl
  · rw [hu] at hout
    exact hout
  · rw [hadm, hu]
    rfl

/-- R13: a channel that the step takes is done. -/
theorem Done.take (h : f.Done s j l t) (hc : c ∉ l) (hj : j ≠ f.k) (hn : NothingWaits s)
    (ha : ∀ (m : Fin 4) (c2 : Fin 12), s.engine.slots[m].awaits (.fade c2) = true → m = j) (ht : f.Takes s c) :
    f.Done s j (l ++ [c]) (t.fadeChannel f.k f.priority f.target f.steps c) := by
  obtain ⟨lamps, share, check, slots, works, hw, hout, hadm, hend⟩ := fadeChannel_frame h hc hj hn ha ht
  generalize t.fadeChannel f.k f.priority f.target f.steps c = w at hw hend
  have howners : w.engine.channelOwners =
      t.engine.channelOwners.set c (some ⟨f.k, f.priority⟩) c.isLt := by rw [hw]; rfl
  have hwl : lamps = w.lamps := by rw [hw]
  rw [hwl] at hout
  have hlamps : ∀ m : Fin 12, w.lamps[m] =
      { (t.setLamp c { f.lamp s c with output := t.lamps[c].output }).lamps[m] with output := w.lamps[m].output } := hout
  have hother : ∀ m : Fin 12, m ≠ c → w.engine.channelOwners[m] = t.engine.channelOwners[m] ∧
      w.lamps[m] = { t.lamps[m] with output := w.lamps[m].output } := fun m hm => by
    refine ⟨by rw [howners]; exact Vector.getElem_set_ne c.isLt m.isLt fun hv => hm (Fin.ext hv.symm), ?_⟩
    have := hlamps m
    rwa [setLamp_other _ hm] at this
  refine ⟨?_, ?_, fun m hm htm => ?_, fun m hm => ?_, ?_⟩
  · obtain ⟨_, _, _, _, _, _, hrest⟩ := h.rest
    refine ⟨lamps, share, check, t.engine.channelOwners.set c (some ⟨f.k, f.priority⟩) c.isLt, slots, works, ?_⟩
    rw [hw, hrest]
    rfl
  · rw [show w.share = share by rw [hw], hadm]
    exact h.admissions
  · by_cases hmc : m = c
    · subst hmc
      refine ⟨by rw [howners]; exact Vector.getElem_set_self _, ?_⟩
      have := hlamps m
      rwa [setLamp_same] at this
    · obtain ⟨ho, hl⟩ := h.taken m ((List.mem_append.1 hm).resolve_right fun hx => hmc (List.mem_singleton.1 hx)) htm
      obtain ⟨ho', hl'⟩ := hother m hmc
      exact ⟨ho'.trans ho, by rw [hl', hl]⟩
  · have hmc : m ≠ c := fun hx => hm (by rw [hx]; exact List.mem_append_right _ (List.mem_singleton_self c)) (hx ▸ ht)
    obtain ⟨ho, hl⟩ := h.left m fun hml => hm (List.mem_append_left _ hml)
    obtain ⟨ho', hl'⟩ := hother m hmc
    exact ⟨ho'.trans ho, by rw [hl', hl]⟩
  · refine hend.congr ?_ rfl rfl
    have happend : (∃ m ∈ l ++ [c], f.Ends s j m) ↔ (∃ m ∈ l, f.Ends s j m) ∨ f.Ends s j c := by
      simp only [List.mem_append, List.mem_singleton, or_and_right, exists_or, exists_eq_left]
    rw [happend, isTakeover_iff, or_assoc, ← or_and_right]
    exact or_congr_right ⟨fun hx => ⟨ht, hx.2, hx.1⟩, fun hx => ⟨hx.2.2, hx.2.1⟩⟩

/-- R13: the FADE step over its channels, in ascending order. -/
theorem issueFade_done (f : FadeSpec) (hj : j ≠ f.k) (hn : NothingWaits s) (hw : s.works = [])
    (ha : ∀ (m : Fin 4) (c2 : Fin 12), s.engine.slots[m].awaits (.fade c2) = true → m = j) :
    f.Done s j (List.finRange 12) ((List.finRange 12).foldl (fun t c =>
      if f.set.getLsbD c.val then t.fadeChannel f.k f.priority f.target f.steps c else t) s) := by
  have hfold : ∀ (rest l : List (Fin 12)) (t : State), (l ++ rest).Nodup → f.Done s j l t →
      f.Done s j (l ++ rest) (rest.foldl (fun t c =>
        if f.set.getLsbD c.val then t.fadeChannel f.k f.priority f.target f.steps c else t) t) := by
    intro rest
    induction rest with
    | nil => exact fun l t _ h => by rwa [List.append_nil]
    | cons c rest ih =>
      intro l t hnd h
      have hc : c ∉ l := fun hm => (List.nodup_append.1 hnd).2.2 c hm c List.mem_cons_self rfl
      have hstep : f.Done s j (l ++ [c])
          (if f.set.getLsbD c.val then t.fadeChannel f.k f.priority f.target f.steps c else t) := by
        by_cases ht : f.Takes s c
        · rw [if_pos ht.1]
          exact h.take hc hj hn ha ht
        · split
          · rename_i hset
            rw [show t.fadeChannel f.k f.priority f.target f.steps c = t from
              if_neg fun hm => ht ((h.mayTake_iff_takes hc hset).1 hm)]
            exact h.skip ht
          · exact h.skip ht
      have := ih (l ++ [c]) _ (by rwa [List.append_assoc]) hstep
      rwa [List.append_assoc] at this
  exact hfold _ [] s (List.nodup_finRange 12) (Done.start f j hw)

end FadeSpec

/-- A slot AWAITS one subject at a time. -/
theorem Slot.awaits_unique {r : Slot} {a b : Subject} (ha : r.awaits a = true) (hb : r.awaits b = true) : a = b := by
  unfold Slot.awaits at ha hb
  cases hr : r.run with
  | none => rw [hr] at ha; cases ha
  | some i =>
    simp only [hr] at ha hb
    cases hw : i.wait with
    | awaiting x d =>
      simp only [hw, beq_iff_eq] at ha hb
      exact ha.symm.trans hb
    | delaying e => simp [hw] at ha
    | completed o => simp [hw] at ha

theorem AwaitsNext.setSlot {j k : Fin 4} {i : Running} {subject : Subject} {next : StepRecord}
    (h : AwaitsNext s j i subject next) (hj : j ≠ k) (r : Slot) : AwaitsNext (s.setSlot k r) j i subject next :=
  ⟨by rw [setSlot_other _ hj]; exact h.run, h.wait, h.step, h.delay⟩

/-- Settles O26: channel by channel, and then the AWAIT that a takeover or a fade of length 0 has ended. -/
theorem fadeStepRespectsOwners : Obligations.FadeStepRespectsOwners := by
  intro s k i next set target duration h hn taken done
  generalize hf : (⟨k, i.priority, set, min target 1000, min duration 60000⟩ : FadeSpec) = f
  have htaken : ∀ c, taken c ↔ f.Takes s c := fun c => by rw [← hf]; exact Iff.rfl
  have main : ∀ j : Fin 4, j ≠ k → (∀ (m : Fin 4) (c2 : Fin 12), s.engine.slots[m].awaits (.fade c2) = true → m = j) →
      ((¬∃ c, f.Ends s j c) → ∃ t, done t ∧ ∀ m : Fin 4, m ≠ k → t.engine.slots[m] = s.engine.slots[m]) ∧
      ∀ c i2 next2, f.Ends s j c → AwaitsNext s j i2 (.fade c) next2 →
        ∃ t, done t ∧ t.engine.slots[j] = ⟨some (movedOn s i2 next2), s.engine.slots[j].mark⟩ := by
    intro j hj ha
    have hd := FadeSpec.issueFade_done (s := s) (j := j) f (by rw [← hf]; exact hj) hn h.ready.settled.noWorks ha
    have hcarry : s.carryOut k i (.fade set target duration) =
        ((List.finRange 12).foldl (fun t c =>
          if f.set.getLsbD c.val then t.fadeChannel f.k f.priority f.target f.steps c else t) s, .moves) := by
      rw [← hf]
      rfl
    generalize (List.finRange 12).foldl (fun t c =>
          if f.set.getLsbD c.val then t.fadeChannel f.k f.priority f.target f.steps c else t) s = t at hd hcarry
    have hnow : t.now = s.now := congrArg (· / 10) hd.clockMs
    have hexec := h.exec_passes hcarry (.inl rfl) rfl (hd.ended.slot_other hj.symm) hd.scenes hnow
    generalize hr : (⟨some (movedOn s i next), s.engine.slots[k].mark⟩ : Slot) = r at hexec
    have hsettle := (hd.ended.setSlot hj r).settle
    have facts : ∀ w : State, w.lamps = t.lamps → w.engine.channelOwners = t.engine.channelOwners →
        w.engine.slots[k] = r → exec (.stepDeadline k) s = .next w.announce → done w.announce := by
      intro w hl ho hk hx
      refine ⟨hx, by rw [announce_engine, hk, ← hr], fun c => ⟨fun hc => ?_, fun hc => ?_⟩⟩
      · have := hd.taken c (List.mem_finRange c) ((htaken c).1 hc)
        rw [announce_engine, announce_lamps, ho, hl]
        rwa [← hf] at this
      · have := hd.left c fun _ hx => hc ((htaken c).2 hx)
        rw [announce_engine, announce_lamps, ho, hl]
        exact this
    refine ⟨fun hno => ?_, fun c i2 next2 hends hawait => ?_⟩
    · have hx := hexec.trans (event_ends (body := fun _ => t.setSlot k r) rfl
        (hsettle.1 fun hx => hno (hx.imp fun _ hx => hx.2)) (by decide))
      refine ⟨_, facts (t.setSlot k r) rfl rfl (setSlot_same _ _) hx, fun m hm => ?_⟩
      rw [announce_engine, setSlot_other _ hm]
      obtain ⟨hx, -⟩ | ⟨-, hslots, -⟩ := hd.ended
      · exact absurd (hx.imp fun _ hx => hx.2) hno
      · rw [hslots]
    · have hx := hexec.trans (event_ends (body := fun _ => t.setSlot k r) rfl
        (hsettle.2 i2 next2 (.fade c) ⟨c, List.mem_finRange c, hends⟩ (hawait.setSlot hj r) hd.scenes hnow) (by decide))
      generalize hw : (⟨some (movedOn (s.setSlot k r) i2 next2), (s.setSlot k r).engine.slots[j].mark⟩ : Slot) = q at hx
      refine ⟨_, facts (withWorks ((t.setSlot k r).setSlot j q) []) rfl rfl ?_ hx, ?_⟩
      · exact (setSlot_other _ hj.symm).trans (setSlot_same _ _)
      · rw [announce_engine]
        refine (setSlot_same _ _).trans ?_
        rw [← hw, setSlot_other _ hj]
        rfl
  refine ⟨fun hno => ?_, fun j c i2 next2 hj hc hawait ha => ⟨fun hcomp => ?_, fun hcomp => ?_⟩⟩
  · obtain ⟨j, hj⟩ : ∃ j : Fin 4, j ≠ k := ⟨k + 1, (by decide : ∀ k : Fin 4, k + 1 ≠ k) k⟩
    have hnone : ∀ (m : Fin 4) (c : Fin 12), s.engine.slots[m].awaits (.fade c) ≠ true := fun m c => by
      rw [hno c m]
      decide
    refine (main j hj fun m c2 hm => absurd hm (hnone m c2)).1 ?_
    rintro ⟨c, -, hx, -⟩
    exact hnone j c hx
  · refine (main j hj ha).2 c i2 next2 ⟨(htaken c).1 hc, hawait.awaits, ?_⟩ hawait
    rw [← hf]
    exact hcomp
  · have hno : ¬∃ c, f.Ends s j c := by
      rintro ⟨c2, -, haw, hx⟩
      have hcc : Subject.fade c2 = .fade c := Slot.awaits_unique haw hawait.awaits
      cases hcc
      rw [← hf] at hx
      exact hcomp hx
    obtain ⟨t, ht, hs⟩ := (main j hj ha).1 hno
    exact ⟨t, ht, hs j hj⟩

end Sys2Proof.Machine
end

section
/-! Requests for power (R59 to R66): the demands with one drive changed, and a recomputation with one request waiting. -/

namespace Sys2Proof.Machine

variable {s t u v : State}

/-! ## Demands -/

/-- Two sums over the drives that differ in one drive. -/
theorem sum_drives_change {f g : Fin 4 → Nat} {d : Fin 4} (h : ∀ j, j ≠ d → f j = g j) :
    ((List.finRange 4).map f).sum + g d = ((List.finRange 4).map g).sum + f d := by
  have hsum : ∀ e : Fin 4 → Nat, ((List.finRange 4).map e).sum = e d + ∑ j ∈ Finset.univ.erase d, e j := fun e => by
    rw [← Fin.sum_univ_def, ← Finset.add_sum_erase _ _ (Finset.mem_univ d)]
  have hrest : ∑ j ∈ Finset.univ.erase d, f j = ∑ j ∈ Finset.univ.erase d, g j :=
    Finset.sum_congr rfl fun j hj => h j (Finset.ne_of_mem_erase hj)
  rw [hsum f, hsum g, hrest]
  omega

theorem motorDemand_change {d : Fin 4} (hset : t.settings = s.settings) (h : ∀ j, j ≠ d → t.claims j = s.claims j) :
    t.motorDemand + (if s.claims d then s.driveWatts d else 0) =
      s.motorDemand + (if t.claims d then s.driveWatts d else 0) := by
  have hw : ∀ j, t.driveWatts j = s.driveWatts j := fun j => by
    unfold State.driveWatts
    rw [hset]
  have := sum_drives_change (f := fun j => if t.claims j then t.driveWatts j else 0)
    (g := fun j => if s.claims j then s.driveWatts j else 0) (d := d) fun j hj => by rw [h j hj, hw]
  rw [hw] at this
  exact this

theorem startedDemand_change {d : Fin 4} (hset : t.settings = s.settings) (h : ∀ j, j ≠ d → t.runs j = s.runs j) :
    t.startedDemand + (if s.runs d then s.driveWatts d else 0) =
      s.startedDemand + (if t.runs d then s.driveWatts d else 0) := by
  have hw : ∀ j, t.driveWatts j = s.driveWatts j := fun j => by
    unfold State.driveWatts
    rw [hset]
  have := sum_drives_change (f := fun j => if t.runs j then t.driveWatts j else 0)
    (g := fun j => if s.runs j then s.driveWatts j else 0) (d := d) fun j hj => by rw [h j hj, hw]
  rw [hw] at this
  exact this

theorem claims_congr {j : Fin 4} (hd : t.drives[j] = s.drives[j]) (ht : t.track = s.track) : t.claims j = s.claims j := by
  unfold State.claims
  rw [hd, ht]

theorem runs_congr {j : Fin 4} (hd : t.drives[j] = s.drives[j]) (ht : t.track = s.track) : t.runs j = s.runs j := by
  unfold State.runs
  rw [hd, ht]

/-! ## A recomputation with one request -/

/-- R65: whether a request of so many mW passes its test in a recomputation made now. -/
abbrev FitsNow (s : State) (watts : MilliWatt) : Prop := fitsWith s s.motorDemand s.startedDemand watts

/-- R65: the test of the one request that waits. -/
theorem testAdmissions_one {e : AdmissionEntry} (hh : s.halt = none) (ha : s.share.admissions = [e]) :
    s.formAllowance.testAdmissions =
      if FitsNow s e.watts then (s.formAllowance.dropEntry e.drive).startEntry e else s.formAllowance := by
  unfold State.testAdmissions
  have hhalt : s.formAllowance.halted = false := by
    unfold State.halted
    rw [State.formAllowance_halt, hh]
    rfl
  rw [hhalt, State.formAllowance_share, ha]
  rfl

/-- R106: without a start no homing run ends at once. -/
theorem homedAtOnce_same (h : t.drives = s.drives) : s.homedAtOnce t = [] := by
  unfold State.homedAtOnce
  rw [h, List.filter_eq_nil_iff]
  intro d _
  cases s.drives[d].state <;> simp

theorem recomputeUpTo_quiet (n : Nat) (h : NothingWaits s) : State.recomputeUpTo (n + 1) [] s = s.recompute := by
  have hnone : s.homedAtOnce s.recomputeOnce = [] := homedAtOnce_same (by rw [recomputeOnce_quiet h]; simp)
  rw [State.recomputeUpTo]
  simp only [hnone, List.append_nil]
  exact (recomputeOnce_quiet h).trans (recompute_quiet h).symm

/-- A recomputation with one request that does not fit: it waits on. -/
theorem recompute_waits {e : AdmissionEntry} (hh : s.halt = none) (ha : s.share.admissions = [e])
    (hf : ¬FitsNow s e.watts) :
    ∃ lamps share, s.recompute = { s with lamps := lamps, share := share, announceCheck := true } ∧
      share.admissions = [e] := by
  obtain ⟨lamps, share, hl, -, -, -, -, hadm⟩ := handLampAllowance_frame s.formAllowance
  have honce : s.recomputeOnce = { s with lamps := lamps, share := share, announceCheck := true } := by
    unfold State.recomputeOnce
    rw [testAdmissions_one hh ha, if_neg hf, hl]
    rfl
  have hnone : s.homedAtOnce s.recomputeOnce = [] := homedAtOnce_same (by rw [honce])
  refine ⟨lamps, share, ?_, hadm.trans ha⟩
  unfold State.recompute
  rw [State.recomputeUpTo]
  simp only [hnone, List.append_nil]
  exact honce

/-- A recomputation with one request that fits: it starts, and the list is empty. -/
theorem recomputeOnce_starts {e : AdmissionEntry} (hh : s.halt = none) (ha : s.share.admissions = [e])
    (hf : FitsNow s e.watts)
    (hs : (s.formAllowance.dropEntry e.drive).startEntry e = t) :
    ∃ lamps share, s.recomputeOnce = { t with lamps := lamps, share := share, announceCheck := true } ∧
      share.admissions = t.share.admissions := by
  obtain ⟨lamps, share, hl, -, -, -, -, hadm⟩ := handLampAllowance_frame t
  refine ⟨lamps, share, ?_, hadm⟩
  unfold State.recomputeOnce
  rw [testAdmissions_one hh ha, if_pos hf, hs, hl]

/-! ## The run of a drive -/

theorem setDrive_setDrive (d : Fin 4) (a b : Drive) : (s.setDrive d a).setDrive d b = s.setDrive d b := by
  simp only [State.setDrive, Vector.set_set]

/-- R66: the run that starts with a drive's request, before what its home switch makes of it. -/
def startedRun (p : Drive) (kind : PendingKind) (c : DriveSettings) (now : Tick) (clockMs : Nat) : Drive :=
  match kind with
  | .move => p.startMove c now clockMs
  | .home => p.startHome c now clockMs

/-- R106: a homing run with the home switch closed ends at once. -/
def Drive.onceStarted (r : Drive) : Drive := if r.state = .homing ∧ r.homeClosed = true then r.arrived else r

section

variable {d : Fin 4} {e : AdmissionEntry} {p : Drive} {kind : PendingKind}

theorem startEntry_driveRun (he : e.kind = .driveRun) (hd : e.drive = d) (hp : s.drives[d].pending = some kind) :
    s.startEntry e = s.setDrive d (startedRun s.drives[d] kind s.settings.drives[d] s.now s.clockMs) := by
  subst hd
  unfold State.startEntry
  simp only [he, hp]
  cases kind <;> rfl

/-- R63, R65: the demands formed, and the one request out of the list. -/
theorem formed_dropEntry (ha : s.share.admissions = [e]) (hd : e.drive = d) :
    ∃ share, s.formAllowance.dropEntry d = { s with share := share } ∧ share.admissions = [] := by
  refine ⟨_, rfl, ?_⟩
  rw [State.formAllowance_share]
  simp [ha, hd]

/-- R65, R66, R106: a recomputation that starts the one request that waits, a drive's. -/
theorem recompute_starts (hh : s.halt = none) (ha : s.share.admissions = [e]) (he : e.kind = .driveRun)
    (hd : e.drive = d) (hf : FitsNow s e.watts) (hs : s.drives[d].state = .pendingPower)
    (hp : s.drives[d].pending = some kind) (hn : NobodyAwaits s (.drive d)) :
    ∃ lamps share, s.recompute =
        { s.setDrive d (startedRun s.drives[d] kind s.settings.drives[d] s.now s.clockMs).onceStarted with
          lamps := lamps, share := share, announceCheck := true } ∧ share.admissions = [] := by
  generalize hr : startedRun s.drives[d] kind s.settings.drives[d] s.now s.clockMs = r
  obtain ⟨formed, hform, hnone⟩ := formed_dropEntry ha hd
  have hstart : (s.formAllowance.dropEntry e.drive).startEntry e = ({ s with share := formed } : State).setDrive d r := by
    rw [hd, hform, startEntry_driveRun (s := { s with share := formed }) (kind := kind) he hd hp]
    exact congrArg _ hr
  obtain ⟨lamps, share, honce, hadm⟩ := recomputeOnce_starts hh ha hf hstart
  have hadm : share.admissions = [] := hadm.trans hnone
  have hhomed : s.homedAtOnce s.recomputeOnce = if r.state = .homing ∧ r.homeClosed = true then [d] else [] := by
    have hdr : s.recomputeOnce.drives[d] = r := by
      rw [honce]
      exact setDrive_same (s := s) d r
    unfold State.homedAtOnce
    rw [ha, List.map_cons, hd, List.map_nil, List.filter_cons, hdr, hs, List.filter_nil]
    congr 1
    simp
  unfold Drive.onceStarted
  by_cases hc : r.state = .homing ∧ r.homeClosed = true
  · rw [if_pos hc] at hhomed
    have hrec : s.recompute = State.recomputeUpTo (3 + 1) [] (s.recomputeOnce.homeAtOnce d) := by
      unfold State.recompute
      rw [State.recomputeUpTo]
      simp only [hhomed, List.nil_append]
    have hend : s.recomputeOnce.homeAtOnce d = s.recomputeOnce.setDrive d r.arrived := by
      unfold State.homeAtOnce
      rw [honce, completeAwaits_none _ (by exact hn)]
      exact congrArg (State.setDrive _ d) (congrArg Drive.arrived (setDrive_same (s := s) d r))
    have hq : NothingWaits (s.recomputeOnce.setDrive d r.arrived) := by
      rw [honce]
      exact .inr hadm
    obtain ⟨lamps', share', hquiet, -, -, -, -, hadm'⟩ := recompute_frame hq
    refine ⟨lamps', share', ?_, ?_⟩
    · rw [hrec, hend, recomputeUpTo_quiet _ hq, hquiet, honce, if_pos hc,
        ← setDrive_setDrive (s := s) d r r.arrived]
      rfl
    · rw [hadm', honce]
      exact hadm
  · rw [if_neg hc] at hhomed
    have hrec : s.recompute = s.recomputeOnce := by
      unfold State.recompute
      rw [State.recomputeUpTo]
      simp only [hhomed, List.nil_append]
    rw [hrec, honce, if_neg hc]
    exact ⟨lamps, share, rfl, hadm⟩

end

end Sys2Proof.Machine
end

section
/-! MOVE and HOME steps that ask for power (R16, R17, R63 to R66, R106, R108), and a SEND on a state with stray TRACK
drives. -/

namespace Sys2Proof.Machine

variable {s t u v : State}

/-- R64 to R66: a drive's request enters the empty list: it starts in the same recomputation when it fits. -/
theorem enterAdmission_drive {d : Fin 4} {kind : PendingKind} (hh : v.halt = none) (ha : v.share.admissions = [])
    (hs : v.drives[d].state = .pendingPower) (hp : v.drives[d].pending = some kind) (hn : NobodyAwaits v (.drive d)) :
    ∃ lamps share, v.enterAdmission .driveRun d =
        { v.setDrive d
            (if FitsNow v (v.driveWatts d) then
              (startedRun v.drives[d] kind v.settings.drives[d] v.now v.clockMs).onceStarted
            else v.drives[d]) with
          lamps := lamps, share := share, announceCheck := true } ∧
      share.admissions =
        if FitsNow v (v.driveWatts d) then [] else [⟨.driveRun, d, v.driveWatts d, v.now⟩] := by
  generalize he : (⟨.driveRun, d, v.driveWatts d, v.now⟩ : AdmissionEntry) = e
  have hadm : v.share.admissions ++ [e] = [e] := by rw [ha]; rfl
  have henter : v.enterAdmission .driveRun d = State.recompute { v with share.admissions := [e] } := by
    unfold State.enterAdmission
    rw [he, hadm]
  by_cases hf : FitsNow v (v.driveWatts d)
  · obtain ⟨lamps, share, hrec, hnone⟩ := recompute_starts (s := { v with share.admissions := [e] }) (e := e) hh rfl
      (by rw [← he]) (by rw [← he]) (by rw [← he]; exact hf) hs hp hn
    refine ⟨lamps, share, ?_, ?_⟩
    · rw [henter, hrec, if_pos hf]
      rfl
    · rw [hnone, if_pos hf]
  · obtain ⟨lamps, share, hrec, hwait⟩ := recompute_waits (s := { v with share.admissions := [e] }) (e := e) hh rfl
      (by rw [← he]; exact hf)
    refine ⟨lamps, share, ?_, ?_⟩
    · rw [henter, hrec, if_neg hf, show v.setDrive d v.drives[d] = v by simp [State.setDrive]]
    · rw [hwait, if_neg hf]

section

variable {k : Fin 4} {i : Running} {a : Action} {next : StepRecord} {d : Fin 4} {p : Drive} {kind : PendingKind}

/-- The state in which a slot has taken a drive, whose record is set (R11). -/
def owned (s : State) (k : Fin 4) (priority : Nat) (d : Fin 4) (p : Drive) : State :=
  (s.setDriveOwner d (some ⟨k, priority⟩)).setDrive d p

/-- R16, R17, R64 to R66: a step that makes a drive ask for power, when nobody AWAITS it and no other request waits. -/
theorem asks_power (h : Issues s k i a next)
    (hc : s.carryOut k i a = ((owned s k i.priority d p).enterAdmission .driveRun d, .moves))
    (hl : s.stepLoopback a = []) (hh : s.halt = none) (ha : s.share.admissions = []) (hs : p.state = .pendingPower)
    (hp : p.pending = some kind) (hn : NobodyAwaits s (.drive d)) :
    ∃ t, (exec (.stepDeadline k) s = .next t ∧
        t.engine.slots[k] = ⟨some (movedOn s i next), s.engine.slots[k].mark⟩ ∧
        t.engine.driveOwners[d] = some ⟨k, i.priority⟩ ∧ (∀ j : Fin 4, j ≠ d → t.drives[j] = s.drives[j]) ∧
        t.share.admissions =
          (if FitsNow (owned s k i.priority d p) (s.driveWatts d) then [] else [⟨.driveRun, d, s.driveWatts d, s.now⟩]) ∧
        t.track = s.track ∧ t.player = s.player ∧ t.inputs = s.inputs ∧ t.memory = s.memory ∧
        ∀ x ∈ t.faults.records, x.kind = .noPower → ∃ y ∈ s.faults.records, y.kind = .noPower) ∧
      t.drives[d] =
        if FitsNow (owned s k i.priority d p) (s.driveWatts d) then
          (startedRun p kind s.settings.drives[d] s.now s.clockMs).onceStarted
        else p := by
  have hpd : (owned s k i.priority d p).drives[d] = p := setDrive_same d p
  obtain ⟨lamps, share, henter, hadm⟩ := enterAdmission_drive (v := owned s k i.priority d p) (d := d) (kind := kind) hh ha
    (by rw [hpd]; exact hs) (by rw [hpd]; exact hp) hn
  rw [hpd] at henter
  rw [henter] at hc
  refine ⟨_, ⟨(h.exec_passes hc (.inl rfl) hl rfl rfl rfl).trans
    (event_ends (body := fun _ => _) rfl (settle_done 0 h.ready.settled.noWorks) (by decide)), ?_, ?_, fun j hj => ?_, ?_,
    ?_, ?_, ?_, ?_, fun x hx hk => ?_⟩, ?_⟩
  · rw [announce_engine]
    exact setSlot_same _ _
  · rw [announce_engine]
    exact Vector.getElem_set_self _
  · rw [announce_drives]
    exact (setDrive_other _ hj).trans (setDrive_other _ hj)
  · rw [announce_share_admissions]
    exact hadm
  · rw [announce_track]; rfl
  · rw [announce_player]; rfl
  · rw [announce_inputs]; rfl
  · rw [announce_memory]; rfl
  · rcases of_mem_announce_faults hx with hx | hx
    · exact ⟨x, hx, hk⟩
    · rw [hx] at hk
      cases hk
  · rw [announce_drives]
    exact setDrive_same d _

/-- R59: the motor demand with a drive in PENDING_POWER. -/
theorem owned_motorDemand (hs : p.state = .pendingPower) :
    (owned s k i.priority d p).motorDemand + (if s.claims d then s.driveWatts d else 0) =
      s.motorDemand + s.driveWatts d := by
  have h := motorDemand_change (s := s) (t := owned s k i.priority d p) (d := d) rfl fun j hj =>
    claims_congr (setDrive_other p hj) rfl
  have hc : (owned s k i.priority d p).claims d = true := by
    unfold State.claims
    rw [show (owned s k i.priority d p).drives[d] = p from setDrive_same d p, hs]
  rwa [hc, if_pos rfl] at h

/-- R60: the started demand with a drive in PENDING_POWER. -/
theorem owned_startedDemand (hs : p.state = .pendingPower) :
    (owned s k i.priority d p).startedDemand + (if s.runs d then s.driveWatts d else 0) = s.startedDemand := by
  have h := startedDemand_change (s := s) (t := owned s k i.priority d p) (d := d) rfl fun j hj =>
    runs_congr (setDrive_other p hj) rfl
  have hc : (owned s k i.priority d p).runs d = false := by
    unfold State.runs
    rw [show (owned s k i.priority d p).drives[d] = p from setDrive_same d p, hs]
  rw [hc] at h
  exact h.trans (Nat.add_zero _)

/-- R64, R65: whether the request of a drive with such demands fits. -/
theorem owned_fits {motor started : MilliWatt} (hm : (owned s k i.priority d p).motorDemand = motor)
    (hs : (owned s k i.priority d p).startedDemand = started) (w : MilliWatt) :
    FitsNow (owned s k i.priority d p) w ↔ fitsWith s motor started w := by
  unfold FitsNow
  rw [hm, hs]
  exact Iff.rfl

end

/-! ## Moves and homing runs -/

section

variable {r : Drive} {c : DriveSettings}

theorem Drive.runClass_fresh (h : r.reversals = 0) :
    r.runClass c =
      if r.position ≤ r.target + c.approach ∧ r.target ≤ r.position + c.approach then 0 else r.speedClass := by
  unfold Drive.runClass
  refine if_congr ?_ rfl rfl
  unfold distance
  rw [h]
  simp
  omega

theorem Drive.takePhase_in (h : r.position ≤ r.target + c.tolerance ∧ r.target ≤ r.position + c.tolerance) :
    r.takePhase c s.now s.clockMs = brakingDrive r s := if_pos ((Drive.inBand_iff r c).2 h)

theorem Drive.takePhase_out (h : ¬(r.position ≤ r.target + c.tolerance ∧ r.target ≤ r.position + c.tolerance)) :
    r.takePhase c s.now s.clockMs =
      drivingDrive { r with up := decide (r.position < r.target), classInForce := r.runClass c } c s :=
  if_neg fun hb => h ((Drive.inBand_iff r c).1 hb)

/-- R108: a run of a MOVE once started. -/
theorem startedRun_move :
    (startedRun r .move c s.now s.clockMs).onceStarted =
      Drive.takePhase { r with state := .moving, pending := none, reversals := 0 } c s.now s.clockMs := by
  unfold Drive.onceStarted
  refine if_neg fun h => ?_
  have hs : (startedRun r .move c s.now s.clockMs).state = .moving := by
    unfold startedRun Drive.startMove Drive.takePhase
    simp only []
    split <;> rfl
  rw [hs] at h
  cases h.1

theorem startedRun_home_open (h : r.homeClosed = false) :
    (startedRun r .home c s.now s.clockMs).onceStarted =
      drivingDrive { r with state := .homing, pending := none, travel := 0, up := false, classInForce := 0 } c s := by
  unfold Drive.onceStarted
  refine (if_neg fun hx => ?_).trans rfl
  have := hx.2
  rw [show (startedRun r .home c s.now s.clockMs).homeClosed = r.homeClosed from rfl, h] at this
  cases this

end

/-! ## Taking a drive -/

theorem isSegment_iff {d : Fin 4} : s.isSegment d = true ↔ s.settings.trackMode = true ∧ d = 3 := by
  unfold State.isSegment
  rw [Bool.and_eq_true, beq_iff_eq]

theorem preemptAwaits_none {subject : Subject} {k : Fin 4} (h : NobodyAwaits s subject) :
    s.preemptAwaits k subject = s := endAwaits_none _ fun j _ => h j

/-- R11, R12: a drive is taken that nobody AWAITS, with no request to abandon. -/
theorem takeDrive_plain {k d : Fin 4} {priority : Nat} (hn : NobodyAwaits s (.drive d))
    (h : s.drives[d].state ≠ .pendingPower ∨ ¬OtherOwns s.engine.driveOwners[d] k) :
    s.takeDrive k priority d = s.setDriveOwner d (some ⟨k, priority⟩) := by
  unfold State.takeDrive
  refine congrArg (State.setDriveOwner · d (some ⟨k, priority⟩)) ?_
  split
  · rename_i ht
    rw [preemptAwaits_none hn]
    exact if_neg (h.resolve_right fun hx => hx (isTakeover_iff.1 ht))
  · rfl

theorem requestMove_idle {d : Fin 4} {target : Nat} {speedClass : Fin 4} {r : Requester}
    (h : s.drives[d].state = .idle) : s.requestMove d target speedClass r = s.pendMove d target speedClass r := by
  unfold State.requestMove
  rw [h]

theorem move_admitted {d : Fin 4} (h : ¬(s.settings.trackMode = true ∧ d = 3)) (hf : s.drives[d].state ≠ .faulted) :
    ¬(s.isSegment d || s.drives[d].state == .faulted) = true := by
  rw [Bool.or_eq_true, isSegment_iff, beq_iff_eq]
  exact fun hx => hx.elim h hf

/-- R16: a MOVE of a homed drive that its slot may take. -/
theorem carryOut_move {k : Fin 4} {i : Running} {d : Fin 4} {target : Nat} {speedClass : Fin 4}
    (h : ¬(s.settings.trackMode = true ∧ d = 3)) (hf : s.drives[d].state ≠ .faulted) (hh : s.drives[d].homed = true)
    (hm : mayTake s.engine.driveOwners[d] k i.priority s.drives[d].finished = true) :
    s.carryOut k i (.move d target speedClass) =
      ((s.takeDrive k i.priority d).requestMove d
        (max s.settings.drives[d].softLow (min s.settings.drives[d].softHigh target)) (s.clampClass d speedClass)
        ⟨k, s.engine.slots[k].mark⟩, .moves) := by
  refine (if_neg (move_admitted h hf)).trans ((if_neg ?_).trans (if_pos hm))
  rw [hh]
  decide

/-- R17: a HOME of a drive that its slot may take. -/
theorem carryOut_home {k : Fin 4} {i : Running} {d : Fin 4} (h : ¬(s.settings.trackMode = true ∧ d = 3))
    (hm : mayTake s.engine.driveOwners[d] k i.priority s.drives[d].finished = true) :
    s.carryOut k i (.home d) =
      ((s.takeDrive k i.priority d).requestHome d ⟨k, s.engine.slots[k].mark⟩, .moves) := by
  refine (if_neg ?_).trans (if_pos hm)
  rw [isSegment_iff]
  exact h

/-! ## A SEND when another drive's record says TRACK -/

/-- Whether a step answers a state in which no request waits. -/
def leavesNone (o : Host.Outcome State Fault Refusal) : Bool :=
  match o with
  | .next t => t.share.admissions.isEmpty
  | _ => false

theorem of_leavesNone {o : Host.Outcome State Fault Refusal} (h : leavesNone o = true) :
    ∃ t, o = .next t ∧ t.share.admissions = [] := by
  cases o with
  | next t => exact ⟨t, rfl, List.isEmpty_iff.1 h⟩
  | _ => cases h

/-- A SEND step, and the step after it. -/
def sendStep : StepRecord := ⟨0, 5, [2]⟩
def laterStep : StepRecord := ⟨5, 7, [9, 4]⟩

/-- A station in track mode whose four drives all have the state TRACK, at the SEND step of scene 0 in slot 0. The drives
are rated at 40 W, the gallery supply at 100 W, and another station asks for 100 W. -/
def strayTracks : State :=
  { State.reset with
    phase := .running
    settings :=
      { State.reset.settings with
        trackMode := true, downstream := 6, capacity := 100, baseShare := 0
        drives := Vector.replicate 4 ⟨40, Vector.replicate 4 500, 0, 65535, 100, 512, 4, 50, false⟩ }
    line := { Line.off with state := .active, peers := [⟨7, 100, 0⟩] }
    track := { Track.atRestart with state := .holding }
    drives := Vector.replicate 4 { Drive.atRestart with state := .track }
    engine.scenes := State.reset.engine.scenes.set 0 (some ⟨9, .none, 3, .hold, false, 2, false, [sendStep, laterStep]⟩)
    engine.slots := State.reset.engine.slots.set 0 ⟨some ⟨0, 3, 0, 0, .delaying 0, .none, 0⟩, 0⟩ }

theorem strayTracks_issues : Issues strayTracks 0 ⟨0, 3, 0, 0, .delaying 0, .none, 0⟩ (.send 2) laterStep where
  ready := ⟨rfl, rfl, rfl⟩
  run := rfl
  due := ⟨0, rfl, Nat.zero_le _⟩
  step := ⟨_, sendStep, rfl, rfl, by decide, rfl⟩
  delay := by decide

/-- With the 40 W of the segment alone the request would not fit. -/
theorem strayTracks_short :
    ¬fitsWith strayTracks (strayTracks.motorDemand + strayTracks.driveWatts 3) strayTracks.startedDemand
      (strayTracks.driveWatts 3) := by decide +kernel

/-- The ask makes the other three TRACK drives claim their watts too (R59), the allowance of R62 grows with the demand,
and the request is admitted. -/
theorem strayTracks_admitted : ∃ t, exec (.stepDeadline 0) strayTracks = .next t ∧ t.share.admissions = [] :=
  of_leavesNone (by decide +kernel)

/-- Refutes O25: a ready state may hold drives other than drive 3 with the state TRACK, and a SEND then adds their watts to
the motor demand, where the statement adds those of the segment alone. -/
theorem not_driveAndSendStepsAskForPower : ¬Obligations.DriveAndSendStepsAskForPower := by
  intro h
  obtain ⟨-, -, hsend⟩ := h strayTracks 0 _ laterStep 0 2
  obtain ⟨-, hready⟩ := hsend strayTracks_issues
  obtain ⟨t, hx, -, -, -, -, -, hwaits⟩ :=
    hready ⟨rfl, by decide, rfl, rfl⟩ rfl rfl rfl (by decide)
  obtain ⟨u, hu, hnone⟩ := strayTracks_admitted
  rw [hu] at hx
  cases hx
  have := (hwaits strayTracks_short).1
  rw [hnone] at this
  cases this

end Sys2Proof.Machine
end

section
/-! MOVE and HOME steps for a drive whose work is not finished (R11, R12, R17, R67, R106, R110). -/

namespace Sys2Proof.Machine

variable {s t u v : State}

/-! ## Requests of a busy drive -/

section

variable {k : Fin 4} {i : Running} {a : Action} {next : StepRecord} {d : Fin 4}

/-- R11: a slot takes a drive that no slot of higher priority owns. -/
theorem mayTake_takes {owner : Option Owner} {priority : Nat} {finished : Bool}
    (h : ∀ o, owner = some o → o.slot = k ∨ o.priority ≤ priority) : mayTake owner k priority finished = true :=
  mayTake_iff.2 fun o ho => (h o ho).imp id .inl

theorem not_otherOwns {owner : Option Owner} (h : ∀ o, owner = some o → o.slot = k) : ¬OtherOwns owner k :=
  fun ⟨o, ho, hk⟩ => hk (h o ho)

/-- R11: a slot leaves alone an unfinished drive that a slot of higher priority owns. -/
theorem mayTake_refused {owner : Option Owner} {priority : Nat} {o : Owner} (ho : owner = some o) (hk : o.slot ≠ k)
    (hp : priority < o.priority) : mayTake owner k priority false = false := by
  refine Bool.eq_false_iff.2 fun h => ?_
  rcases mayTake_iff.1 h o ho with h | h | h
  · exact hk h
  · exact absurd hp (Nat.not_lt.2 h)
  · cases h

theorem carryOut_move_left {target : Nat} {speedClass : Fin 4} (h : ¬(s.settings.trackMode = true ∧ d = 3))
    (hf : s.drives[d].state ≠ .faulted) (hh : s.drives[d].homed = true)
    (hm : mayTake s.engine.driveOwners[d] k i.priority s.drives[d].finished = false) :
    s.carryOut k i (.move d target speedClass) = (s, .moves) := by
  refine (if_neg (move_admitted h hf)).trans ((if_neg ?_).trans (if_neg ?_))
  · rw [hh]
    decide
  · rw [hm]
    decide

theorem carryOut_home_left (h : ¬(s.settings.trackMode = true ∧ d = 3))
    (hm : mayTake s.engine.driveOwners[d] k i.priority s.drives[d].finished = false) :
    s.carryOut k i (.home d) = (s, .moves) := by
  refine (if_neg ?_).trans (if_neg ?_)
  · rw [isSegment_iff]
    exact h
  · rw [hm]
    decide

/-- A step that does no more than set the record of the drive it takes. -/
theorem becomes_drive (h : Issues s k i a next) {r : Drive} (hc : s.carryOut k i a = (owned s k i.priority d r, .moves))
    (hl : s.stepLoopback a = []) :
    exec (.stepDeadline k) s =
      .next ((((s.setDriveOwner d (some ⟨k, i.priority⟩)).setDrive d r)).setSlot k
        ⟨some (movedOn s i next), s.engine.slots[k].mark⟩) :=
  (h.exec_passes hc (.inl rfl) hl rfl rfl rfl).trans
    (event_quiet rfl ⟨h.ready.settled.noWorks, h.ready.settled.noCheck⟩)

theorem requestMove_moving {target : Nat} {speedClass : Fin 4} {r : Requester} (h : s.drives[d].state = .moving) :
    s.requestMove d target speedClass r =
      s.setDrive d (s.drives[d].retarget s.settings.drives[d] target speedClass r s.now s.clockMs) := by
  unfold State.requestMove
  rw [h]

theorem requestMove_pending {target : Nat} {speedClass : Fin 4} {r : Requester}
    (h : s.drives[d].state = .pendingPower) :
    s.requestMove d target speedClass r =
      s.setDrive d { s.drives[d] with target := target, speedClass := speedClass, requester := some r } := by
  unfold State.requestMove
  rw [h]

theorem requestHome_moving {r : Requester} (h : s.drives[d].state = .moving) : s.requestHome d r = s.pendHome d r := by
  unfold State.requestHome
  rw [h]

theorem requestHome_homing {r : Requester} (h : s.drives[d].state = .homing) :
    s.requestHome d r = s.setDrive d { s.drives[d] with requester := some r } := by
  unfold State.requestHome
  rw [h]

theorem requestHome_pending {r : Requester} (h : s.drives[d].state = .pendingPower) :
    s.requestHome d r =
      s.setDrive d { s.drives[d] with pending := some .home, homed := false, requester := some r } := by
  unfold State.requestHome
  rw [h]

end

/-! ## A new target on the way (R110) -/

section

variable {r : Drive} {c : DriveSettings} {target : Nat} {speedClass : Fin 4} {q : Requester}

/-- The record of a drive with a new target. -/
def Drive.turned (r : Drive) (target : Nat) (speedClass : Fin 4) (q : Requester) : Drive :=
  { r with target := target, speedClass := speedClass, reversals := 0, requester := some q }

theorem retarget_in (h : r.position ≤ target + c.tolerance ∧ target ≤ r.position + c.tolerance) :
    r.retarget c target speedClass q s.now s.clockMs = brakingDrive (r.turned target speedClass q) s :=
  if_pos ((Drive.inBand_iff (r.turned target speedClass q) c).2 h)

theorem retarget_goesOn (h : ¬(r.position ≤ target + c.tolerance ∧ target ≤ r.position + c.tolerance))
    (hg : r.braking = false ∧ r.up = decide (r.position < target)) :
    r.retarget c target speedClass q s.now s.clockMs =
      { r.turned target speedClass q with classInForce := (r.turned target speedClass q).runClass c } := by
  refine (if_neg fun hb => h ((Drive.inBand_iff (r.turned target speedClass q) c).1 hb)).trans (if_pos ?_)
  rw [hg.1, hg.2]
  exact beq_self_eq_true _

theorem retarget_turns (h : ¬(r.position ≤ target + c.tolerance ∧ target ≤ r.position + c.tolerance))
    (hg : ¬(r.braking = false ∧ r.up = decide (r.position < target))) :
    r.retarget c target speedClass q s.now s.clockMs =
      drivingDrive
        { r.turned target speedClass q with
          up := decide (r.position < target), classInForce := (r.turned target speedClass q).runClass c } c s := by
  refine (if_neg fun hb => h ((Drive.inBand_iff (r.turned target speedClass q) c).1 hb)).trans ((if_neg ?_).trans
    (Drive.takePhase_out (r := r.turned target speedClass q) h))
  rw [Bool.and_eq_true, beq_iff_eq, Bool.not_eq_true']
  exact hg

end

/-! ## A takeover of a waiting request (R12, R67) -/

section

variable {k j d : Fin 4} {priority : Nat}

theorem Ended.start (s : State) (j : Fin 4) (hw : s.works = []) : Ended s j False s := .inr ⟨id, rfl, hw⟩

/-- R12, R67: a waiting MOVE taken over from another slot: the AWAIT on it ends, and the request leaves the list. -/
theorem takeDrive_over (hw : s.works = []) (ho : OtherOwns s.engine.driveOwners[d] k)
    (hs : s.drives[d].state = .pendingPower) (hp : s.drives[d].pending = some .move)
    (hadm : ∀ e ∈ s.share.admissions, e.drive = d) (hj : j ≠ k)
    (haw : s.engine.slots[j].awaits (.drive d) = true)
    (ha : ∀ m : Fin 4, s.engine.slots[m].awaits (.drive d) = true → m = j) :
    ∃ slots works lamps share, s.takeDrive k priority d =
        { s.setDrive d { s.drives[d] with state := .idle, pending := none } with
          engine.slots := slots, works := works, lamps := lamps, share := share, announceCheck := true
          engine.driveOwners := s.engine.driveOwners.set d.val (some ⟨k, priority⟩) d.isLt } ∧
      OutputsOnly s.lamps lamps ∧ share.admissions = [] ∧ Ended s j True (s.takeDrive k priority d) := by
  obtain ⟨slots, works, hpre⟩ := endAwait_frame s (.drive d) .preempted j
  have hended := ((Ended.start s j hw).endAwait (.drive d) (out := .preempted) (by decide)).congr (q := True)
    ⟨fun _ => trivial, fun _ => .inr haw⟩ rfl rfl
  have hunstarted : s.drives[d].unstarted = { s.drives[d] with state := .idle, pending := none } := by
    unfold Drive.unstarted
    rw [hp]
    rfl
  generalize hv : s.endAwait (.drive d) .preempted j = v at hpre hended
  have hq : NothingWaits ((v.setDrive d { s.drives[d] with state := .idle, pending := none }).dropEntry d) :=
    nothingWaits_dropEntry (s := v.setDrive d _) (.inr (by rw [hpre]; exact hadm))
  obtain ⟨lamps, share, hrec, hout, -, -, -, hnone⟩ := recompute_frame hq
  have htake : s.takeDrive k priority d =
      ((v.setDrive d { s.drives[d] with state := .idle, pending := none }).dropEntry d).recompute.setDriveOwner d
        (some ⟨k, priority⟩) := by
    unfold State.takeDrive
    simp only []
    rw [if_pos (isTakeover_iff.2 ho), preemptAwaits_eq hj ha, hv]
    unfold State.abandonRequest
    rw [show v.drives = s.drives by rw [hpre], if_pos hs, hunstarted]
  rw [htake, hrec]
  refine ⟨slots, works, lamps, share, by rw [hpre]; rfl, ?_, ?_, hended.congr Iff.rfl rfl rfl⟩
  · rw [hpre] at hout
    exact hout
  · rw [hnone]
    show (v.share.admissions.filter fun e => e.drive != d) = []
    rw [List.filter_eq_nil_iff, hpre]
    intro e he
    simp [hadm e he]

variable {i i2 : Running} {next next2 : StepRecord} {target : Nat} {speedClass : Fin 4} {o : Owner} {e : AdmissionEntry}

/-- R12, R67: the MOVE that takes a waiting drive over makes a new request, and the slot that waited goes on. -/
theorem takeover_asks {r p : Drive} (h : Issues s k i (.move d target speedClass) next)
    (hseg : ¬(s.settings.trackMode = true ∧ d = 3)) (hh : s.drives[d].homed = true)
    (hs : s.drives[d].state = .pendingPower) (hpend : s.drives[d].pending = some .move)
    (ho : s.engine.driveOwners[d] = some o) (hk : o.slot ≠ k) (hprio : o.priority ≤ i.priority) (hhalt : s.halt = none)
    (hadm : s.share.admissions = [e]) (he : e.drive = d) (hj : j ≠ k) (hawait : AwaitsNext s j i2 (.drive d) next2)
    (halone : ∀ m : Fin 4, s.engine.slots[m].awaits (.drive d) = true → m = j)
    (hp : p =
      { s.drives[d] with
        target := max s.settings.drives[d].softLow (min s.settings.drives[d].softHigh target)
        speedClass := s.clampClass d speedClass, requester := some ⟨k, s.engine.slots[k].mark⟩ })
    (hr : r =
      if fitsWith s s.motorDemand s.startedDemand (s.driveWatts d) then
        (startedRun p .move s.settings.drives[d] s.now s.clockMs).onceStarted
      else p) :
    ∃ t, (exec (.stepDeadline k) s = .next t ∧
        t.engine.slots[k] = ⟨some (movedOn s i next), s.engine.slots[k].mark⟩ ∧
        t.engine.driveOwners[d] = some ⟨k, i.priority⟩ ∧ (∀ j : Fin 4, j ≠ d → t.drives[j] = s.drives[j]) ∧
        t.track = s.track ∧ t.player = s.player ∧
        ∀ x ∈ t.faults.records, x.kind = .noPower → ∃ y ∈ s.faults.records, y.kind = .noPower) ∧
      t.engine.slots[j] = ⟨some (movedOn s i2 next2), s.engine.slots[j].mark⟩ ∧
      t.share.admissions =
        (if fitsWith s s.motorDemand s.startedDemand (s.driveWatts d) then []
         else [⟨.driveRun, d, s.driveWatts d, s.now⟩]) ∧
      t.drives[d] = r := by
  have hps : p.state = .pendingPower := by rw [hp]; exact hs
  have hpp : p.pending = some .move := by rw [hp]; exact hpend
  obtain ⟨slots, works, lamps, share, htake, hout, hnone, hended⟩ :=
    takeDrive_over (priority := i.priority) h.ready.settled.noWorks ⟨o, ho, hk⟩ hs hpend
      (by rw [hadm]; simpa using he) hj hawait.awaits halone
  have hcarry := carryOut_move (k := k) (target := target) (speedClass := speedClass) hseg (by rw [hs]; decide) hh
    (mayTake_takes (finished := s.drives[d].finished) fun x hx => .inr (by
      obtain rfl := Option.some.inj (ho.symm.trans hx)
      exact hprio))
  generalize s.takeDrive k i.priority d = v at htake hended hcarry
  have hvd : v.drives[d] = { s.drives[d] with state := .idle, pending := none } := by
    rw [htake]
    exact setDrive_same d _
  rw [requestMove_idle (by rw [hvd])] at hcarry
  have hpendMove : v.pendMove d (max s.settings.drives[d].softLow (min s.settings.drives[d].softHigh target))
      (s.clampClass d speedClass) ⟨k, s.engine.slots[k].mark⟩ = (v.setDrive d p).enterAdmission .driveRun d := by
    unfold State.pendMove
    rw [hvd, hp, ← hs, ← hpend]
  rw [hpendMove] at hcarry
  have hx : ∃ x : State, v.setDrive d p = x ∧ x.drives[d] = p ∧ (∀ m : Fin 4, m ≠ d → x.drives[m] = s.drives[m]) ∧
      x.settings = s.settings ∧ x.track = s.track ∧ x.player = s.player ∧ x.faults = s.faults ∧ x.lampDemand = s.lampDemand ∧
      x.halt = s.halt ∧ x.clockMs = s.clockMs ∧ x.line = s.line ∧ x.share.admissions = [] ∧
      x.engine.driveOwners[d] = some ⟨k, i.priority⟩ ∧ x.engine.scenes = s.engine.scenes ∧ Ended s j True x := by
    refine ⟨_, rfl, setDrive_same d p, fun m hm => (setDrive_other _ hm).trans ?_, ?_, ?_, ?_, ?_, hout.lampDemand ?_ ?_, ?_,
      ?_, ?_, ?_, ?_, ?_, hended.congr Iff.rfl rfl rfl⟩ <;> rw [htake]
    · exact setDrive_other _ hm
    all_goals try rfl
    · exact hnone
    · exact Vector.getElem_set_self _
  obtain ⟨x, hv, hxd, hxo, hset, htrack, hplayer, hfaults, hlamp, hxh, hclock, hline, hxa, hxw, hscenes, hxe⟩ := hx
  rw [hv] at hcarry
  have hnow : x.now = s.now := congrArg (· / 10) hclock
  have hfits : FitsNow x (s.driveWatts d) ↔ fitsWith s s.motorDemand s.startedDemand (s.driveWatts d) := by
    have hm := motorDemand_change hset fun m hm => claims_congr (hxo m hm) htrack
    have hr := startedDemand_change hset fun m hm => runs_congr (hxo m hm) htrack
    have hcl : x.claims d = s.claims d := by
      unfold State.claims
      rw [hxd, hps, hs]
    have hru : x.runs d = s.runs d := by
      unfold State.runs
      rw [hxd, hps, hs]
    rw [hcl] at hm
    rw [hru] at hr
    have hpeer : x.peerSum = s.peerSum := by
      unfold State.peerSum
      rw [hline]
    rw [FitsNow, fitsWith, Nat.add_right_cancel hm, Nat.add_right_cancel hr, hlamp, hline, hset, hpeer]
  obtain ⟨lamps2, share2, henter, hadm2⟩ := enterAdmission_drive (v := x) (d := d) (kind := .move)
    (hxh.trans hhalt) hxa (by rw [hxd]; exact hps) (by rw [hxd]; exact hpp)
    fun m => Bool.eq_false_iff.2 fun ha =>
      (hxe.awaits (subject := .drive d) ha).2 (halone m (hxe.awaits (subject := .drive d) ha).1) trivial
  have hwatts : x.driveWatts d = s.driveWatts d := by
    unfold State.driveWatts
    rw [hset]
  have hstart : (if FitsNow x (x.driveWatts d) then
      (startedRun x.drives[d] .move x.settings.drives[d] x.now x.clockMs).onceStarted else x.drives[d]) = r := by
    rw [hwatts, if_congr hfits rfl rfl, hxd, hset, hnow, hclock, hr]
  rw [hstart] at henter
  rw [hwatts, hnow, if_congr hfits rfl rfl] at hadm2
  rw [henter] at hcarry
  have hw := hxe.congr (u :=
    { x.setDrive d r with lamps := lamps2, share := share2, announceCheck := true }) Iff.rfl rfl rfl
  have hexec := h.exec_passes hcarry (.inl rfl) rfl (hw.slot_other hj.symm) hscenes hnow
  have hsettle := (hw.setSlot hj ⟨some (movedOn s i next), s.engine.slots[k].mark⟩).settle.2 i2 next2 (.drive d) trivial
    (hawait.setSlot hj _) hscenes hnow
  have hx := hexec.trans (event_ends (body := fun _ => _) rfl hsettle (by decide))
  refine ⟨_, ⟨hx, ?_, ?_, fun m hm => ?_, ?_, ?_, fun y hy hk => ?_⟩, ?_, ?_, ?_⟩
  · rw [announce_engine]
    exact (setSlot_other _ hj.symm).trans (setSlot_same _ _)
  · rw [announce_engine]
    exact hxw
  · rw [announce_drives]
    exact (setDrive_other _ hm).trans (hxo m hm)
  · rw [announce_track]
    exact htrack
  · rw [announce_player]
    exact hplayer
  · rcases of_mem_announce_faults hy with hy | hy
    · refine ⟨y, ?_, hk⟩
      rw [← hfaults]
      exact hy
    · rw [hy] at hk
      cases hk
  · rw [announce_engine]
    refine (setSlot_same _ _).trans ?_
    rw [setSlot_other _ hj]
    rfl
  · rw [announce_share_admissions]
    exact hadm2
  · rw [announce_drives]
    exact setDrive_same d _

end

/-- Settles O32: a busy drive is left alone, given its new target, or made to ask for power anew. -/
theorem requestsOfBusyDrives : Obligations.RequestsOfBusyDrives := by
  intro s k i next d a h hseg mark r c w owner busy mine takes becomes entry asked
  refine ⟨fun o ho hk hprio hbusy ha => ?_, fun target speedClass ha hh => ?_, fun ha => ?_⟩
  · have hst : s.drives[d].state = .homing ∨ s.drives[d].state = .pendingPower ∨ s.drives[d].state = .moving := hbusy
    have hfin : s.drives[d].finished = false := by
      unfold Drive.finished
      rcases hst with hb | hb | hb <;> rw [hb] <;> rfl
    have hne : s.drives[d].state ≠ .faulted := by rcases hst with hb | hb | hb <;> rw [hb] <;> decide
    have hno : mayTake s.engine.driveOwners[d] k i.priority s.drives[d].finished = false := by
      rw [hfin]
      exact mayTake_refused ho hk hprio
    obtain ⟨target, class_, rfl, hh⟩ | rfl := ha
    · exact h.exec_passedOver (carryOut_move_left hseg hne hh hno) (.inl rfl) rfl
    · exact h.exec_passedOver (carryOut_home_left hseg hno) (.inl rfl) rfl
  · subst ha
    intro goal class_ inForce set turned inBand goesOn
    have hclass : (r.turned goal class_ ⟨k, mark⟩).runClass c = inForce := Drive.runClass_fresh rfl
    refine ⟨fun hst htk hn => ?_, fun hst hmine hn => ?_, ?_⟩
    · have hst : s.drives[d].state = .moving := hst
      have hc : s.carryOut k i (.move d target speedClass) =
          (owned s k i.priority d (r.retarget c goal class_ ⟨k, mark⟩ s.now s.clockMs), .moves) := by
        rw [carryOut_move hseg (by rw [hst]; decide) hh (mayTake_takes htk),
          takeDrive_plain hn (.inl (by rw [hst]; decide)), requestMove_moving (s := s.setDriveOwner d _) hst]
        rfl
      refine ⟨fun hb => ?_, fun hb hg => ?_, fun hb hg => ?_⟩
      · rw [retarget_in hb] at hc
        exact becomes_drive h hc rfl
      · rw [retarget_goesOn hb hg, hclass] at hc
        exact becomes_drive h hc rfl
      · rw [retarget_turns hb hg, hclass] at hc
        exact becomes_drive h hc rfl
    · have hst : s.drives[d].state = .pendingPower := hst
      refine becomes_drive h ?_ rfl
      rw [carryOut_move hseg (by rw [hst]; decide) hh (mayTake_takes fun o ho => .inl (hmine o ho)),
        takeDrive_plain hn (.inr (not_otherOwns hmine)), requestMove_pending (s := s.setDriveOwner d _) hst]
      rfl
    · intro o e j i2 next2 hst hpend ho hk hprio hhalt hadm he hj hawait halone fits
      have hst : s.drives[d].state = .pendingPower := hst
      have hpend : s.drives[d].pending = some .move := hpend
      obtain ⟨t, ⟨hx, hslot, howner, hother, htrack, hplayer, hfaults⟩, hslotj, hadmt, hdrive⟩ :=
        takeover_asks h hseg hh hst hpend ho hk hprio hhalt hadm he hj hawait halone rfl rfl
      refine ⟨t, ⟨hx, hslot, howner, hother, htrack, hplayer, hfaults⟩, hslotj, hadmt, fun hf hb => ?_, fun hf hb => ?_,
        fun hf => ?_⟩
      · rw [hdrive, if_pos hf, startedRun_move]
        exact Drive.takePhase_in hb
      · rw [hdrive, if_pos hf, startedRun_move]
        refine (Drive.takePhase_out hb).trans ?_
        rw [Drive.runClass_fresh rfl]
        rfl
      · rw [hdrive, if_neg hf]
        rfl
  · subst ha
    intro set
    refine ⟨fun hst htk hn => ?_, fun hst hmine hn => ?_, ?_⟩
    · have hst : s.drives[d].state = .homing := hst
      refine becomes_drive h ?_ rfl
      rw [carryOut_home hseg (mayTake_takes htk), takeDrive_plain hn (.inl (by rw [hst]; decide)),
        requestHome_homing (s := s.setDriveOwner d _) hst]
      rfl
    · have hst : s.drives[d].state = .pendingPower := hst
      refine becomes_drive h ?_ rfl
      rw [carryOut_home hseg (mayTake_takes fun o ho => .inl (hmine o ho)),
        takeDrive_plain hn (.inr (not_otherOwns hmine)), requestHome_pending (s := s.setDriveOwner d _) hst]
      rfl
    · intro hst htk hn hhalt hadm stopped fits
      have hst : s.drives[d].state = .moving := hst
      generalize hp : ({ stopped with state := .pendingPower, pending := some .home } : Drive) = p
      have hps : p.state = .pendingPower := by rw [← hp]
      have hc : s.carryOut k i (.home d) = ((owned s k i.priority d p).enterAdmission .driveRun d, .moves) := by
        rw [carryOut_home hseg (mayTake_takes htk), takeDrive_plain hn (.inl (by rw [hst]; decide)),
          requestHome_moving (s := s.setDriveOwner d _) hst, ← hp]
        rfl
      have hfits : FitsNow (owned s k i.priority d p) (s.driveWatts d) ↔ fits := by
        have hm := owned_motorDemand (s := s) (k := k) (i := i) (d := d) hps
        have hs := owned_startedDemand (s := s) (k := k) (i := i) (d := d) hps
        rw [show s.claims d = true by unfold State.claims; rw [hst], if_pos rfl] at hm
        rw [show s.runs d = true by unfold State.runs; rw [hst], if_pos rfl] at hs
        exact owned_fits (Nat.add_right_cancel hm) (Nat.eq_sub_of_add_eq hs) _
      obtain ⟨t, ⟨hx, hslot, howner, hother, hadm', htrack, hplayer, -, -, hfaults⟩, hdrive⟩ :=
        asks_power (kind := .home) h hc rfl hhalt hadm hps (by rw [← hp]) hn
      refine ⟨t, ⟨hx, hslot, howner, hother, htrack, hplayer, hfaults⟩, hadm'.trans (if_congr hfits rfl rfl),
        fun hf hopen => ?_, fun hf => ?_⟩
      · rw [hdrive, if_pos (hfits.2 hf), startedRun_home_open (by rw [← hp]; exact hopen), ← hp]
      · rw [hdrive, if_neg fun hx => hf (hfits.1 hx), ← hp]

end Sys2Proof.Machine
end

section
/-! The ends of a clip and of a fade-out (R15, R19, R95, R98). -/

namespace Sys2Proof.Machine

variable {s t u : State}

theorem reportedSlot_own {r : Slot} {e : SayEntry} {i : Running} (h : Handle) (hm : r.mark = e.mark) (hr : r.run = some i)
    (hn : i.sayCount = e.sayNumber) : (reportedSlot r e h).run = some { i with handle := h } := by
  unfold reportedSlot
  rw [if_pos hm, hr]
  simp [hn]

/-- R15, R19: a report of a SAY that is over ends the AWAIT of its slot. -/
theorem reportSay_awaited {e : SayEntry} {hd : Handle} {out : AwaitOutcome} {i : Running} (ho : hd.outcome? = some out)
    (hm : s.engine.slots[e.slot].mark = e.mark) (hr : s.engine.slots[e.slot].run = some i) (hn : i.sayCount = e.sayNumber)
    (hw : ∃ deadline, i.wait = .awaiting .narration deadline) :
    s.reportSay e hd =
      (s.setSlot e.slot ⟨some { i with handle := hd, wait := .completed out }, e.mark⟩).raise
        [.awaitDone e.slot e.mark] := by
  obtain ⟨deadline, hw⟩ := hw
  generalize hv : s.setSlot e.slot { s.engine.slots[e.slot] with run := some { i with handle := hd } } = v
  have hvk : v.engine.slots[e.slot] = ⟨some { i with handle := hd }, e.mark⟩ := by
    rw [← hv, ← hm]
    exact setSlot_same _ _
  have haw : v.engine.slots[e.slot].awaits .narration = true := by
    rw [hvk]
    simp [Slot.awaits, hw]
  have hend : s.reportSay e hd = v.endAwait .narration out e.slot := by
    unfold State.reportSay State.instanceOf
    rw [if_pos hm, hr]
    simp only []
    rw [if_pos hn, ho, hv]
  rw [hend, endAwait_awaits out (by rw [hvk]) haw, hvk, ← hv, setSlot_setSlot]

theorem checkStart_empty (h : s.player.queue = []) : s.checkStart = s := by
  unfold State.checkStart
  rw [h]

theorem exec_clipEnd {e : SayEntry} {p : Tick} {clip : Clip} (hr : Ready s) (hc : s.player.current = some e)
    (hs : s.player.state = .playing) (hp : s.player.playStart = some p) (hclip : s.clip? e.clip = some clip)
    (ht : p + (clip.length + 159) / 160 ≤ s.now) : exec .clipEnd s = event State.endClip s := by
  have hover : s.clipOver = true := by
    unfold State.clipOver State.durationOf
    simp only [hc, hp, hclip, Option.map_some, Option.getD_some]
    exact decide_eq_true ht
  refine if_pos ?_
  rw [inShow_of_ready hr, hs, hover]
  rfl

theorem exec_fadeOutEnd {p : Tick} (hr : Ready s) (hs : s.player.state = .fadingOut) (hp : s.player.fadeOutStart = some p)
    (ht : p + 20 ≤ s.now) : exec .fadeOutEnd s = event State.endFadeOut s := by
  have hover : s.fadeOutOver = true := by
    unfold State.fadeOutOver reached
    rw [hs, hp]
    simp [ht]
  refine if_pos ?_
  rw [inShow_of_ready hr, hover]
  rfl

/-- The state in which the output is silent and the TALK_END joins the queue (R95, R98). -/
def talkOver (s : State) : State :=
  { s with player.audioOutput := 0, line.queue := insertTx ⟨.talkEnd, s.now, false, 0⟩ s.line.queue }

theorem handOver_talkEnd (h : s.line.queue.length < 8) :
    State.handOver { s with player.audioOutput := 0 } .talkEnd = talkOver s :=
  handOver_room (s := { s with player.audioOutput := 0 }) (by decide) h

theorem endClip_eq {e : SayEntry} (hc : s.player.current = some e) (h : s.line.queue.length < 8) :
    s.endClip =
      (State.reportSay { talkOver s with player.current := none } e .done).raise [.playerIdle] := by
  unfold State.endClip
  simp only []
  rw [handOver_talkEnd h, hc]

/-- Settles O40: the report and the AWAIT of the clip's slot, and then the player at rest. -/
theorem clipAndFadeOutEnd : Obligations.ClipAndFadeOutEnd := by
  intro s e p hr hc hq hl stopped sent
  generalize hover : ({ talkOver s with player.current := none } : State) = v
  have hbody : s.endClip = (v.reportSay e .done).raise [.playerIdle] := by rw [← hover]; exact endClip_eq hc hl
  have hworks : v.works = [] := by rw [← hover]; exact hr.settled.noWorks
  have hslots : v.engine.slots = s.engine.slots := by rw [← hover]; rfl
  have hstop : ∀ (k : Fin 4) (r : Slot), State.take (v.setSlot k r) .playerIdle = sent.setSlot k r := fun k r => by
    rw [← hover]
    exact checkStart_empty hq
  have hsettled : Settled sent := ⟨hr.settled.noWorks, hr.settled.noCheck⟩
  refine ⟨fun clip hs hp hclip ht => ⟨fun hn => ?_, fun i next hm hcount ha => ?_⟩, fun hs hp ht => ?_⟩
  · rw [exec_clipEnd hr hc hs hp hclip ht]
    have haw : v.engine.slots[e.slot].awaits .narration = false := by
      rw [hslots]
      exact hn e.slot
    rw [reportSay_eq .done haw, hslots] at hbody
    refine ⟨_, event_one hbody hworks (hstop _ _)
      ⟨hsettled.noWorks, hsettled.noCheck⟩, fun i hm hi hcount => ?_, rfl⟩
    exact (congrArg Slot.run (setSlot_same _ _)).trans (reportedSlot_own .done hm hi hcount)
  · rw [exec_clipEnd hr hc hs hp hclip ht]
    obtain ⟨sc, hsc, hnext⟩ := ha.step
    rw [reportSay_awaited (hd := .done) rfl (by rw [hslots]; exact hm) (by rw [hslots]; exact ha.run) hcount ha.wait,
      raise_raise, raise_of_none _ (by exact hworks)] at hbody
    generalize hc : (⟨some { i with handle := .done, wait := .completed .done }, e.mark⟩ : Slot) = c at hbody
    generalize hend : (⟨some { movedOn s i next with handle := .done }, e.mark⟩ : Slot) = r
    have hdone : State.settle 1 (withWorks (v.setSlot e.slot c) [.awaitDone e.slot e.mark]) =
        some (withWorks (v.setSlot e.slot r) []) := by
      rw [settle_completed (s := withWorks (v.setSlot e.slot c) [.awaitDone e.slot e.mark])
        (i := { i with handle := .done }) (next := next) ((setSlot_same _ _).trans hc.symm) rfl (by decide) (sc := sc)
        (by rw [← hover]; exact hsc) hnext ha.delay, ← setSlot_setSlot e.slot c r, ← hend, ← hover]
      rfl
    have hidle := settle_one (s := v.setSlot e.slot r) (w := .playerIdle)
      ((congrArg (State.take · .playerIdle) (withWorks_self (by exact hworks))).trans (hstop e.slot r)) hsettled.noWorks
    have hboth := settle_append (ws := [.awaitDone e.slot e.mark]) (rest := [.playerIdle]) hdone hidle
    rw [event_ends hbody hboth (by decide)]
    exact congrArg _ (announce_none hsettled.noCheck)
  · rw [exec_fadeOutEnd hr hs hp ht]
    refine event_quiet ?_ hsettled
    unfold State.endFadeOut
    rw [handOver_talkEnd hl]
    exact checkStart_empty hq

end Sys2Proof.Machine
end

section
/-! The station with no command waiting: its own due events, and the time of one sample (R50, R80, R97, R98). -/

namespace Sys2Proof.Machine

variable {s t u : State}

/-- One of the due events is queued. -/
theorem idle_queues {c : Instr} (h : c ∈ s.dueEvents) :
    ∃ e ∈ s.dueEvents, ∃ n, s.idle = { s with pending := [e], draws := n } := by
  unfold State.idle
  match hl : s.dueEvents with
  | [] =>
    rw [hl] at h
    cases h
  | [e] => exact ⟨e, List.mem_singleton_self e, s.draws, rfl⟩
  | e :: e' :: es =>
    have hlt : Config.nextDue s.draws % (e :: e' :: es).length < (e :: e' :: es).length :=
      Nat.mod_lt _ (Nat.succ_pos _)
    refine ⟨_, List.getElem_mem hlt, s.draws + 1, ?_⟩
    simp only [List.getD_eq_getElem _ _ hlt]

theorem idle_passes (h : s.dueEvents = []) : s.idle = s.passTime := by
  unfold State.idle
  rw [h]

theorem step_idle (h : s.pending = []) : step s = .next s.idle := by
  unfold step
  rw [h]

theorem dueEvents_stopped (h : s.phase = .powerOff ∨ s.phase = .heldInReset) : s.dueEvents = [] := by
  unfold State.dueEvents
  rcases h with h | h <;> rw [h]

theorem passTime_stopped (h : s.phase = .powerOff ∨ s.phase = .heldInReset) : s.passTime = s := by
  unfold State.passTime
  rcases h with h | h <;> rw [h]

theorem passTime_runs (hp : s.phase ≠ .powerOff) (hr : s.phase ≠ .heldInReset) : s.passTime = s.tickClock.sendSample := by
  unfold State.passTime
  cases h : s.phase with
  | powerOff => exact absurd h hp
  | heldInReset => exact absurd h hr
  | _ => rfl

/-! ## The clock and the dimmers (R50) -/

theorem tickClock_frame (s : State) :
    ∃ clock lamps, s.tickClock = { s with sampleClock := s.sampleClock + 1, clockMs := clock, lamps := lamps } ∧
      clock = (if s.sampleClock = 15 then s.clockMs + 1 else s.clockMs) ∧
      ∀ c : Fin 12, lamps[c] =
        if s.sampleClock = 15 then { s.lamps[c] with dimmer := s.lamps[c].output } else s.lamps[c] := by
  unfold State.tickClock
  by_cases h : s.sampleClock = 15
  · refine ⟨s.clockMs + 1, Vector.ofFn fun c => { s.lamps[c] with dimmer := s.lamps[c].output }, ?_, (if_pos h).symm,
      fun c => ?_⟩
    · rw [if_pos h, h]
      rfl
    · rw [if_pos h]
      simp
  · exact ⟨s.clockMs, s.lamps, if_neg h, (if_neg h).symm, fun c => (if_neg h).symm⟩

/-! ## The samples of a clip (R80, R97, R98) -/

section

variable {e : SayEntry} {p : Tick} {clip : Clip}

theorem sendSample_next (hc : s.player.current = some e) (hp : s.player.playStart = some p)
    (hclip : s.clip? e.clip = some clip) (hl : s.player.samplesSent < clip.length) :
    s.sendSample =
      { s with
        player.audioOutput := s.sampleNow clip s.player.samplesSent, player.samplesSent := s.player.samplesSent + 1 } := by
  unfold State.sendSample
  simp only [hc, hp, hclip, if_pos hl]

/-- With no sample left to send, the output stays. -/
theorem sendSample_over (h : s.player.playStart = none ∨
    ∀ e clip, s.player.current = some e → s.clip? e.clip = some clip → clip.length ≤ s.player.samplesSent) :
    s.sendSample = s := by
  unfold State.sendSample
  split
  · rename_i e p hc hp
    split
    · rename_i clip hclip
      refine if_neg (Nat.not_lt.2 ?_)
      exact (h.resolve_left fun hn => by rw [hn] at hp; cases hp) e clip hc hclip
    · rfl
  · rfl

theorem ducked_eq : s.ducked = s.player.voices.any fun v => v.talking := by
  unfold State.ducked State.allQuiet
  induction s.player.voices with
  | nil => rfl
  | cons v vs ih =>
    rw [List.all_cons, List.any_cons, Bool.not_and, ih, Bool.not_not]

theorem effectiveGain_playing (h : s.player.state = .playing) :
    s.effectiveGain clip =
      let base := clip.gain * s.settings.bayVolume / 1000
      if s.player.voices.any (fun v => v.talking) then base * s.settings.duckLevel / 1000 else base := by
  unfold State.effectiveGain
  simp only [h, ducked_eq]

theorem effectiveGain_fading {f : Tick} (h : s.player.state = .fadingOut) (hf : s.player.fadeOutStart = some f) :
    s.effectiveGain clip =
      let base := clip.gain * s.settings.bayVolume / 1000
      (if s.player.voices.any (fun v => v.talking) then base * s.settings.duckLevel / 1000 else base) *
        (20 - (s.now - f)) / 20 := by
  unfold State.effectiveGain
  simp only [h, hf, ducked_eq]

end

/-- Settles O2: a due event is queued; with none due, the clock and then the clip being played move on. -/
theorem idleStepQueuesDueEventOrPassesTime : Obligations.IdleStepQueuesDueEventOrPassesTime := by
  intro s hpend
  refine ⟨fun ⟨c, hc⟩ => ?_, fun h => ?_, fun hnone hoff hreset => ?_⟩
  · obtain ⟨e, he, n, hidle⟩ := idle_queues ((mem_dueEvents s c).2 hc)
    exact ⟨e, (mem_dueEvents s e).1 he, n, (step_idle hpend).trans (congrArg _ hidle)⟩
  · rw [step_idle hpend, idle_passes (dueEvents_stopped h), passTime_stopped h]
  · have hdue : s.dueEvents = [] := List.eq_nil_iff_forall_not_mem.2 fun c hc => hnone c ((mem_dueEvents s c).1 hc)
    obtain ⟨clock, lamps, htick, hclock, hlamps⟩ := tickClock_frame s
    obtain ⟨x, n, hsend⟩ := sendSample_frame (s := s.tickClock)
    refine ⟨s.tickClock.sendSample, by rw [step_idle hpend, idle_passes hdue, passTime_runs hoff hreset],
      ?_, ?_, fun c => ?_, ?_, fun h => ?_, ?_⟩
    · rw [hsend, htick]
    · rw [hsend, htick]
      exact hclock
    · rw [hsend, htick]
      exact hlamps c
    · intro e p clip hc hp hclip hl base gain value
      rw [sendSample_next (s := s.tickClock) (e := e) (p := p) (clip := clip) (by rw [htick]; exact hc)
        (by rw [htick]; exact hp) (by rw [htick]; exact hclip) (by rw [htick]; exact hl)]
      refine ⟨by rw [htick], fun hs => ?_, fun f hs hf => ?_⟩
      · show sampleOutput _ (s.tickClock.effectiveGain clip) = _
        rw [effectiveGain_playing (s := s.tickClock) (by rw [htick]; exact hs), htick]
        rfl
      · show sampleOutput _ (s.tickClock.effectiveGain clip) = _
        rw [effectiveGain_fading (s := s.tickClock) (by rw [htick]; exact hs) (by rw [htick]; exact hf), htick]
        rfl
    · rw [sendSample_over (s := s.tickClock) (by rw [htick]; exact h), htick]
    · rw [hsend, htick]

end Sys2Proof.Machine
end

section
/-! Restarts into the show (R1, R25, R29, R40, R57, R77, R101, R118, R133, R145, R148, R149, R155 to R157). -/

namespace Sys2Proof.Machine

variable {s t u : State}

/-! ## The SCENE_BAD records (R1) -/

/-- The fault records once the bad scene records of a list of scenes are recorded at the start of the show. -/
def badScenes (m : List Host.Cell) (scenes : List (Fin 64)) (records : List FaultRecord) : List FaultRecord :=
  (scenes.filter fun n => decide (readScene m n = .bad)).foldl
    (fun rs n => mergeFault rs .sceneBad (BitVec.ofNat 8 n.val) 0) records

/-- The state with the records of the fault list given, its staff outputs evaluated (R155). -/
def withRecords (s : State) (records : List FaultRecord) : State :=
  State.indicators { s with faults.records := records }

theorem noteScene_eq {m : List Host.Cell} {n : Fin 64} {records : List FaultRecord} (ht : s.showTime = 0) :
    (withRecords s records).noteScene (readScene m n) n = withRecords s (badScenes m [n] records) := by
  unfold badScenes
  cases h : readScene m n with
  | bad =>
    rw [← ht, List.filter_cons_of_pos (by rw [h]; rfl)]
    rfl
  | _ => rw [List.filter_cons_of_neg (by rw [h]; exact Bool.false_ne_true)]; rfl

theorem badScenes_cons (m : List Host.Cell) (n : Fin 64) (ns : List (Fin 64)) (records : List FaultRecord) :
    badScenes m (n :: ns) records = badScenes m ns (badScenes m [n] records) := by
  unfold badScenes
  rw [← List.foldl_append, ← List.filter_append]
  rfl

theorem noteScenes_eq {m : List Host.Cell} (ht : s.showTime = 0) : ∀ (ns : List (Fin 64)) (records : List FaultRecord),
    ns.foldl (fun t n => t.noteScene (readScene m n) n) (withRecords s records) = withRecords s (badScenes m ns records)
  | [], _ => rfl
  | n :: ns, records => by
    rw [List.foldl_cons, noteScene_eq ht, noteScenes_eq ht ns, badScenes_cons m n ns]

theorem readScenes_eq {records : List FaultRecord} (ht : t.showTime = 0)
    (h : ({ s with engine.scenes := Vector.ofFn fun n : Fin 64 => (readScene s.memory n).scene? } : State) =
      withRecords t records) : s.readScenes = withRecords t (badScenes s.memory (List.finRange 64) records) := by
  have hfold := noteScenes_eq (m := s.memory) ht (List.finRange 64) records
  rw [← h] at hfold
  exact hfold

/-! ## The start of the show (R157) -/

/-- A state at the reading of the scene table (R157). -/
def beforeScenes (s : State) (c : Settings) (inputs : InputUnit) : State :=
  { State.indicators { s with phase := .running, settings := c } with inputs := inputs }

/-- The show with its scene table, but for the fault list. -/
def scenesRead (s : State) (c : Settings) (inputs : InputUnit) : State :=
  { s with
    phase := .running, settings := c, inputs := inputs
    engine.scenes := Vector.ofFn fun n : Fin 64 => (readScene s.memory n).scene? }

theorem readScenes_started {c : Settings} {inputs : InputUnit} (ht : s.showTime = 0) :
    (beforeScenes s c inputs).readScenes =
      withRecords (scenesRead s c inputs) (badScenes s.memory (List.finRange 64) s.faults.records) := by
  have hshow : (scenesRead s c inputs).showTime = 0 := ht
  have hm : (beforeScenes s c inputs).memory = s.memory := rfl
  have hb : ({ beforeScenes s c inputs with
      engine.scenes := Vector.ofFn fun n : Fin 64 => (readScene s.memory n).scene? } : State) =
      withRecords (scenesRead s c inputs) s.faults.records := by
    simp only [beforeScenes, withRecords, scenesRead, State.indicators, State.inShow]
  have h := readScenes_eq (s := beforeScenes s c inputs) hshow hb
  rwa [hm] at h

/-- The show with its remaining blocks at their restart values (R77, R101, R118, R133, R145). -/
def blocksStarted (t : State) (m : List Host.Cell) (levels : Levels) : State :=
  { t with
    player := Player.atStart (readSettings m) m
    drives := Vector.ofFn (Drive.atStart (readSettings m) levels)
    track :=
      { Track.atRestart with
        state := if (readSettings m).trackMode && (t.beamBroken .arrive || t.beamBroken .depart) then .holding else .empty }
    line := Line.joining }

theorem startShow_eq (levels : Levels) (ht : s.showTime = 0) :
    s.startShow levels =
      blocksStarted
        (withRecords (scenesRead s (readSettings s.memory) (InputUnit.atStart (readSettings s.memory) levels))
          (badScenes s.memory (List.finRange 64) s.faults.records)) s.memory levels := by
  rw [← readScenes_started ht]
  unfold State.startShow blocksStarted beforeScenes
  rfl

/-- A state with nothing but its own queue and draws, its show memory and its fault records (R156). -/
def restarted (pending : List Instr) (draws : Nat) (m : List Host.Cell) (faults : FaultList) : State :=
  { State.reset with pending := pending, draws := draws, memory := m, faults := faults }

theorem restarted_showTime (pending : List Instr) (draws : Nat) (m : List Host.Cell) (faults : FaultList) :
    (restarted pending draws m faults).showTime = 0 := by
  show BitVec.ofNat 32 (0 / 10) = 0
  rfl

theorem first_eq (c : InputSettings) (code : BitVec 10) :
    Input.first c code =
      ⟨decide (c.kind ≠ .unused ∧ code.toNat * 1000 / 1023 < c.threshold),
        decide (c.kind ≠ .unused ∧ code.toNat * 1000 / 1023 < c.threshold), 0, none, none⟩ := by
  have h : (c.kind != .unused && c.compare false (levelOf code)) =
      decide (c.kind ≠ .unused ∧ code.toNat * 1000 / 1023 < c.threshold) := by
    rw [Bool.decide_and, Bool.eq_iff_iff]
    unfold InputSettings.compare levelOf
    simp
  unfold Input.first
  simp only [h]

theorem blank_showTime (p : Phase) : (s.blank p).showTime = 0 := by
  show BitVec.ofNat 32 (0 / 10) = 0
  rfl

theorem startShow_startsShow (pending : List Instr) (draws : Nat) (m : List Host.Cell) (levels : Levels)
    (faults : FaultList) :
    ((restarted pending draws m faults).startShow levels).pending = pending ∧
      StartsShow m levels faults.records ((restarted pending draws m faults).startShow levels) := by
  rw [startShow_eq levels (restarted_showTime _ _ _ _)]
  refine ⟨rfl, ⟨⟨rfl, rfl⟩, rfl, rfl, rfl, rfl, fun n => ?_, fun k => ?_, fun c => ?_, fun d => ?_, fun n => ?_, rfl,
    fun i => ?_, ⟨rfl, rfl⟩, ⟨rfl, rfl⟩, fun c => ?_, rfl, ⟨rfl, rfl, rfl, rfl⟩, ⟨rfl, rfl, rfl, rfl⟩, rfl, fun n => ?_,
    fun d => ?_, ?_, rfl, rfl, rfl, rfl, ?_, ?_⟩⟩
  · exact Vector.getElem_ofFn _
  · exact Vector.getElem_replicate _
  · exact Vector.getElem_replicate _
  · exact Vector.getElem_replicate _
  · exact Vector.getElem_replicate _
  · exact (Vector.getElem_ofFn _).trans (first_eq _ _)
  · exact Vector.getElem_replicate _
  · exact Vector.getElem_ofFn _
  · refine (Vector.getElem_ofFn _).trans ?_
    unfold Drive.atStart
    simp
    rfl
  · unfold blocksStarted
    simp
    rfl
  · exact List.any_eq_true
  · exact List.any_eq_true

/-! ## The three causes (R156) -/

theorem restart_show {cause : RestartCause} {levels : Levels} (h : configCheck s.memory = none) :
    s.restart cause false levels =
      (restarted s.pending s.draws s.memory
        ⟨mergeFault s.faults.records .restart (BitVec.ofNat 8 cause.code) 0, false, false⟩).startShow levels := by
  have hb : (s.blank .unconfigured).recordFault .restart cause.code =
      restarted s.pending s.draws s.memory
        ⟨mergeFault s.faults.records .restart (BitVec.ofNat 8 cause.code) 0, false, false⟩ := by
    unfold State.recordFault
    rw [blank_showTime]
    rfl
  unfold State.restart
  simp only [Bool.false_and, hb]
  unfold State.intoShow
  rw [show (restarted s.pending s.draws s.memory
    ⟨mergeFault s.faults.records .restart (BitVec.ofNat 8 cause.code) 0, false, false⟩).memory = s.memory from rfl, h]
  rfl

theorem cutOperation_frame (s : State) :
    s.cutOperation.pending = s.pending ∧ s.cutOperation.faults = s.faults := by
  unfold State.cutOperation
  split
  · exact ⟨rfl, rfl⟩
  · exact ⟨rfl, rfl⟩
  · exact ⟨rfl, rfl⟩

theorem cutOperation_free (h : s.port.operation = none) : s.cutOperation = s := by
  unfold State.cutOperation
  rw [h]

theorem exec_exit {levels : Levels} (h : PortFree s) :
    exec (.exit levels) s = .next ((s.answer []).restart .maintExit false levels) := by
  show execExit levels s = _
  unfold execExit portCommand State.inMaintenance State.busy
  rw [h.phase, h.operation]
  rfl

/-- Settles O4: each cause leaves its RESTART record and starts the show. -/
theorem validConfigurationStartsShow : Obligations.ValidConfigurationStartsShow := by
  intro s levels hvalid m
  obtain ⟨hpend, hfaults⟩ := cutOperation_frame s
  refine ⟨?_, fun hoff => ?_, fun hfree => ?_⟩
  · refine ⟨_, rfl, ?_⟩
    rw [restart_show (s := { s.cutOperation with faults.records := [] }) hvalid, ← hpend]
    exact startShow_startsShow _ _ _ _ _
  · refine ⟨_, if_neg hoff, ?_⟩
    rw [restart_show (s := s.cutOperation) hvalid, ← hpend, ← hfaults]
    exact startShow_startsShow _ _ _ _ _
  · have hcut : s.cutOperation = s := cutOperation_free hfree.operation
    refine ⟨_, exec_exit hfree, ?_⟩
    rw [restart_show (s := s.answer []) (by rw [hcut] at hvalid; exact hvalid)]
    rw [show m = s.memory from congrArg State.memory hcut]
    exact startShow_startsShow _ _ _ _ _

end Sys2Proof.Machine
end

section
/-! The entry into HALTED, block by block (R24, R53, R73, R99, R116, R123, R130, R149). -/

namespace Sys2Proof.Machine

variable {s t u v : State}

theorem halted_of_halt {r : HaltReason} (h : s.halt = some r) : s.halted = true := by
  unfold State.halted
  rw [h]
  rfl

/-! ## Scenes (R24) -/

/-- R24: the cancel of one slot at a halt. -/
theorem cancelSlot_halted (s : State) (k : Fin 4) :
    ∃ (e : SceneEngine) (ws : List Work), s.cancelSlot k .halted = { s with engine := e, works := s.works ++ ws } ∧
      (ws = [] ∨ ∃ n, ws = [.retake n]) ∧ e.slots[k].run = none ∧
      ∀ j : Fin 4, j ≠ k → e.slots[j] = s.engine.slots[j] := by
  unfold State.cancelSlot
  split
  · rename_i hr
    exact ⟨s.engine, [], by rw [List.append_nil], .inl rfl, hr, fun _ _ => rfl⟩
  · rename_i i hr
    simp only [if_true, or_true]
    have htrack : ∃ q, s.cancelTrack k s.engine.slots[k].mark .halted = { s with engine.trackRequester := q } := by
      unfold State.cancelTrack
      split
      · exact ⟨none, rfl⟩
      · exact ⟨s.engine.trackRequester, rfl⟩
    obtain ⟨q, hq⟩ := htrack
    rw [hq, clearOwners_setRun]
    exact ⟨_, _, rfl, .inr ⟨_, rfl⟩, freed_run _ k, fun j hj => setSlot_other _ hj⟩

theorem cancelSlots_halted : ∀ (l : List (Fin 4)) (s : State),
    ∃ (e : SceneEngine) (ns : List (Fin 64)), l.foldl (fun t k => t.cancelSlot k .halted) s =
        { s with engine := e, works := s.works ++ ns.map .retake } ∧ ns.length ≤ l.length ∧
      (∀ k ∈ l, e.slots[k].run = none) ∧ ∀ j : Fin 4, j ∉ l → e.slots[j] = s.engine.slots[j]
  | [], s => ⟨s.engine, [], by simp, Nat.le_refl 0, fun _ h => absurd h List.not_mem_nil, fun _ _ => rfl⟩
  | k :: l, s => by
    obtain ⟨e, ws, hk, hws, hfree, hother⟩ := cancelSlot_halted s k
    obtain ⟨e', ns, hl, hlen, hfrees, hothers⟩ := cancelSlots_halted l { s with engine := e, works := s.works ++ ws }
    rw [List.foldl_cons, hk, hl]
    have hcancel : ∀ j, j ∈ k :: l → e'.slots[j].run = none := by
      intro j hj
      by_cases hjl : j ∈ l
      · exact hfrees j hjl
      · rw [hothers j hjl, (List.mem_cons.1 hj).resolve_right hjl]
        exact hfree
    have hkeep : ∀ j : Fin 4, j ∉ k :: l → e'.slots[j] = s.engine.slots[j] := fun j hj => by
      rw [hothers j fun h => hj (List.mem_cons_of_mem _ h)]
      exact hother j fun h => hj (h ▸ List.mem_cons_self)
    obtain rfl | ⟨n, rfl⟩ := hws
    · exact ⟨e', ns, by rw [List.append_nil], hlen.trans (Nat.le_succ _), hcancel, hkeep⟩
    · exact ⟨e', n :: ns, by rw [List.append_assoc]; rfl, Nat.succ_le_succ hlen, hcancel, hkeep⟩

theorem haltScenes_frame (s : State) :
    ∃ (e : SceneEngine) (ns : List (Fin 64)), s.haltScenes = { s with engine := e, works := s.works ++ ns.map .retake } ∧ ns.length ≤ 4 ∧
      (∀ k : Fin 4, e.slots[k].run = none) ∧ (∀ c : Fin 12, e.channelOwners[c] = none) ∧
      ∀ d : Fin 4, e.driveOwners[d] = none := by
  obtain ⟨e, ns, h, hlen, hfree, -⟩ := cancelSlots_halted (List.finRange 4) s
  unfold State.haltScenes
  rw [h]
  exact ⟨_, ns, rfl, hlen, fun k => hfree k (List.mem_finRange k), fun _ => Vector.getElem_replicate _,
    fun _ => Vector.getElem_replicate _⟩

/-! ## Lamps (R53) -/

/-- The lamp record of a channel at the entry into HALTED, but for its output level. -/
def haltFaded (s : State) (c : Fin 12) : Lamp :=
  if s.used c = true then s.lamps[c].startFade s.settings.channels[c].haltLevel 100 none s.now else s.lamps[c]

theorem startFade_halted {c : Fin 12} (h : s.halted = true) :
    ∃ lamps share check, s.startFade c s.settings.channels[c].haltLevel 100 none =
        { s with lamps := lamps, share := share, announceCheck := check } ∧
      lamps[c] = { haltFaded s c with output := lamps[c].output } ∧
      (∀ j : Fin 12, j ≠ c → lamps[j] = { s.lamps[j] with output := lamps[j].output }) := by
  unfold State.startFade haltFaded
  by_cases hu : s.used c = true
  · rw [if_pos hu, if_pos hu]
    simp only []
    rw [if_neg (by decide)]
    obtain ⟨lamps, share, check, hl, ho, -⟩ := lampChanged_frame
      (s := s.setLamp c (s.lamps[c].startFade s.settings.channels[c].haltLevel 100 none s.now)) (.inl h)
    refine ⟨lamps, share, check, hl, ?_, fun j hj => ?_⟩
    · have := ho c
      rwa [setLamp_same] at this
    · have := ho j
      rwa [setLamp_other _ hj] at this
  · rw [if_neg hu, if_neg hu]
    exact ⟨s.lamps, s.share, s.announceCheck, rfl, rfl, fun _ _ => rfl⟩

theorem haltFades_list : ∀ (l : List (Fin 12)) (s : State), l.Nodup → s.halted = true →
    ∃ lamps share check, l.foldl (fun t c => t.startFade c t.settings.channels[c].haltLevel 100 none) s =
        { s with lamps := lamps, share := share, announceCheck := check } ∧
      (∀ c ∈ l, lamps[c] = { haltFaded s c with output := lamps[c].output }) ∧
      ∀ c : Fin 12, c ∉ l → lamps[c] = { s.lamps[c] with output := lamps[c].output }
  | [], s, _, _ => ⟨s.lamps, s.share, s.announceCheck, rfl, fun _ h => absurd h List.not_mem_nil, fun _ _ => rfl⟩
  | c :: l, s, hn, h => by
    obtain ⟨hc, hn⟩ := List.nodup_cons.1 hn
    obtain ⟨lamps, share, check, hs, hsame, hother⟩ := startFade_halted (c := c) h
    obtain ⟨lamps', share', check', hl, hdone, hleft⟩ :=
      haltFades_list l { s with lamps := lamps, share := share, announceCheck := check } hn h
    rw [List.foldl_cons, hs, hl]
    refine ⟨lamps', share', check', rfl, fun j hj => ?_, fun j hj => ?_⟩
    · by_cases hjl : j ∈ l
      · have hjc : j ≠ c := fun hx => hc (hx ▸ hjl)
        have := hdone j hjl
        unfold haltFaded at this ⊢
        rw [show ({ s with lamps := lamps, share := share, announceCheck := check } : State).used j = s.used j from rfl]
          at this
        by_cases hu : s.used j = true
        · rw [if_pos hu] at this ⊢
          rw [this]
          show _ = ({ s.lamps[j].startFade _ _ _ _ with output := lamps'[j].output } : Lamp)
          rw [show ({ s with lamps := lamps, share := share, announceCheck := check } : State).lamps[j] = lamps[j] from rfl,
            hother j hjc]
          rfl
        · rw [if_neg hu] at this ⊢
          rw [this]
          show ({ lamps[j] with output := _ } : Lamp) = _
          rw [hother j hjc]
      · obtain rfl : j = c := (List.mem_cons.1 hj).resolve_right hjl
        have := hleft j hjl
        rw [this]
        show ({ lamps[j] with output := _ } : Lamp) = _
        rw [hsame]
    · have hjc : j ≠ c := fun hx => hj (hx ▸ List.mem_cons_self)
      have := hleft j fun h => hj (List.mem_cons_of_mem _ h)
      rw [this]
      show ({ lamps[j] with output := _ } : Lamp) = _
      rw [hother j hjc]

theorem haltFades_frame (h : s.halted = true) :
    ∃ lamps share check, s.haltFades = { s with lamps := lamps, share := share, announceCheck := check } ∧
      ∀ c : Fin 12, lamps[c] = { haltFaded s c with output := lamps[c].output } := by
  obtain ⟨lamps, share, check, hl, hdone, -⟩ := haltFades_list (List.finRange 12) s (List.nodup_finRange 12) h
  exact ⟨lamps, share, check, hl, fun c => hdone c (List.mem_finRange c)⟩

end Sys2Proof.Machine
end

section
/-! The entry into HALTED, continued: the transmit queue, the player, the drives and the track (R99, R116, R123, R130). -/

namespace Sys2Proof.Machine

variable {s t u v : State}

/-- Every slot is FREE. -/
def AllFree (s : State) : Prop := ∀ k : Fin 4, s.engine.slots[k].run = none

theorem AllFree.awaits (h : AllFree s) (subject : Subject) : NobodyAwaits s subject := fun k => by
  unfold Slot.awaits
  rw [h k]

/-! ## Frames handed over while no scene runs (R91, R138, R139) -/

theorem reportSay_free (h : AllFree s) (e : SayEntry) (hd : Handle) : s.reportSay e hd = s := by
  unfold State.reportSay State.instanceOf
  split
  · rename_i i hi
    split at hi
    · rw [h] at hi
      cases hi
    · cases hi
  · rfl

theorem returnSay_free (h : AllFree s) (e : SayEntry) : ∃ q, s.returnSay e = s.setSayQueue q := by
  have hq : ∀ q, AllFree (s.setSayQueue q) := fun _ => h
  unfold State.returnSay
  split
  · exact ⟨s.player.queue, reportSay_free h _ _⟩
  · split
    · exact ⟨_, rfl⟩
    · simp only []
      split
      · exact ⟨_, reportSay_free (hq _) _ _⟩
      · split
        · rw [reportSay_free (hq _)]
          split
          · exact ⟨_, rfl⟩
          · exact ⟨_, reportSay_free (hq _) _ _⟩
        · exact ⟨s.player.queue, rfl⟩

theorem intentDiscarded_free (h : AllFree s) (claim : Nat) :
    ∃ p, s.intentDiscarded claim = { s with player := p } ∧ (s.player.state ≠ .settling → p = s.player) := by
  unfold State.intentDiscarded State.endClaim
  split
  · rename_i hs
    refine (?_ : ∃ p, _).imp fun p hp => ⟨hp, fun hn => absurd hs.1 hn⟩
    split
    · rename_i e he
      obtain ⟨q, hq⟩ := returnSay_free (s :=
        { s with player.state := .idle, player.current := none, player.intentSent := false, player.windowEnd := none })
        h e
      rw [hq]
      exact ⟨_, rfl⟩
    · exact ⟨_, rfl⟩
  · exact ⟨s.player, rfl, fun _ => rfl⟩

theorem discardTx_free (h : AllFree s) (e : TxEntry) :
    ∃ f p, s.discardTx e = { s with faults := f, player := p } ∧ (s.player.state ≠ .settling → p = s.player) := by
  unfold State.discardTx
  simp only []
  split
  · obtain ⟨p, hp, hsame⟩ := intentDiscarded_free (s := s.recordFault .lineOverrun e.body.cls) h e.claim
    rw [hp]
    exact ⟨_, p, rfl, hsame⟩
  · exact ⟨_, s.player, rfl, fun _ => rfl⟩

/-- The transmit queue has room, or a frame that one of class 0 displaces (R139). -/
def Displaceable (q : List TxEntry) : Prop :=
  q.length < 8 ∨ (q.length = 8 ∧ ∃ x ∈ q, x.inTransmission = false ∧ 0 < x.body.cls)

theorem removeLast_some {p : TxEntry → Bool} : ∀ {q : List TxEntry} {x : TxEntry}, x ∈ q → p x = true →
    ∃ r, removeLast p q = some r
  | y :: q, x, hx, hp => by
    unfold removeLast
    cases hr : removeLast p q with
    | some r => exact ⟨_, rfl⟩
    | none =>
      rcases List.mem_cons.1 hx with rfl | hx
      · exact ⟨_, if_pos hp⟩
      · obtain ⟨r, hr'⟩ := removeLast_some hx hp
        rw [hr] at hr'
        cases hr'

/-- R138, R139: a frame that is entered while no scene runs. -/
theorem enterTx_free (h : AllFree s) (e : TxEntry) :
    ∃ q f p, s.enterTx e = { s with line.queue := q, faults := f, player := p } ∧
      (s.player.state ≠ .settling → p = s.player) ∧ (s.line.queue.length < 8 → q = insertTx e s.line.queue) ∧
      (q = s.line.queue ∨ e ∈ q) ∧ (s.line.queue.length ≤ 8 → q.length ≤ 8) ∧
      (e.body.cls = 0 → Displaceable s.line.queue → e ∈ q) := by
  unfold State.enterTx
  split
  · rename_i hlen
    exact ⟨_, s.faults, s.player, rfl, fun _ => rfl, fun _ => rfl, .inr (mem_insertTx _ _),
      fun _ => by rw [insertTx_length]; exact hlen, fun _ _ => mem_insertTx _ _⟩
  · rename_i hlen
    split
    · rename_i y ys hy
      obtain ⟨f, p, hd, hsame⟩ := discardTx_free (s := s.setTxQueue (insertTx e ys)) h y
      rw [hd]
      exact ⟨_, f, p, rfl, hsame, fun hx => absurd hx hlen, .inr (mem_insertTx _ _),
        fun hx => by rw [insertTx_length, removeLast_length hy]; exact hx, fun _ _ => mem_insertTx _ _⟩
    · split
      · rename_i y ys hy
        obtain ⟨f, p, hd, hsame⟩ := discardTx_free (s := s.setTxQueue (insertTx e ys)) h y
        rw [hd]
        exact ⟨_, f, p, rfl, hsame, fun hx => absurd hx hlen, .inr (mem_insertTx _ _),
          fun hx => by rw [insertTx_length, removeLast_length hy]; exact hx, fun _ _ => mem_insertTx _ _⟩
      · rename_i hno
        obtain ⟨f, p, hd, hsame⟩ := discardTx_free h e
        rw [hd]
        refine ⟨s.line.queue, f, p, rfl, hsame, fun hx => absurd hx hlen, .inl rfl, id, fun hc hdis => ?_⟩
        obtain ⟨-, x, hx, ht, hcls⟩ := hdis.resolve_left hlen
        obtain ⟨r, hr⟩ := removeLast_some (p := fun x => !x.inTransmission && decide (e.body.cls < x.body.cls)) hx
          (by rw [ht, hc]; simpa using hcls)
        rw [hr] at hno
        cases hno

theorem handOver_enterTx {body : FrameBody} (hk : body.kind ≠ .load) : s.handOver body = s.enterTx ⟨body, s.now, false, 0⟩ :=
  if_neg (by simpa [TxEntry.isLoad] using hk)

/-- A frame of a class above 0 leaves a queue that gives way to one of class 0. -/
theorem Displaceable.enterTx {e : TxEntry} {q r : List TxEntry} (h : Displaceable q) (he : q = r ∨ e ∈ r)
    (ht : e.inTransmission = false) (hc : 0 < e.body.cls) (hlen : r.length ≤ 8) : Displaceable r := by
  rcases he with rfl | he
  · exact h
  · rcases Nat.lt_or_eq_of_le hlen with hlt | heq
    · exact .inl hlt
    · exact .inr ⟨heq, e, he, ht, hc⟩

theorem Displaceable.filter {q : List TxEntry} (h : Displaceable q) (p : TxEntry → Bool) : Displaceable (q.filter p) := by
  have hle := List.length_filter_le p q
  rcases h with h | ⟨h, x, hx⟩
  · exact .inl (lt_of_le_of_lt hle h)
  · rcases Nat.lt_or_eq_of_le hle with hlt | heq
    · exact .inl (h ▸ hlt)
    · have hq : q.filter p = q := List.filter_eq_self.2 (List.length_filter_eq_length_iff.1 heq)
      exact .inr ⟨by rw [hq]; exact h, x, by rw [hq]; exact hx⟩

theorem Displaceable.length {q : List TxEntry} (h : Displaceable q) : q.length ≤ 8 := by
  rcases h with h | h
  · exact Nat.le_of_lt h
  · exact Nat.le_of_eq h.1

/-! ## The player (R99) -/

theorem haltNarration_frame (h : AllFree s) :
    ∃ p q f, s.haltNarration = { s with player := p, line.queue := q, faults := f } ∧ p.state = .idle ∧ p.queue = [] ∧
      (s.player.state = .idle → q = s.line.queue) ∧
      (s.player.state ≠ .idle → s.line.queue.length < 8 →
        q = insertTx ⟨.talkEnd, s.now, false, 0⟩ s.line.queue) ∧
      (Displaceable s.line.queue → Displaceable q) := by
  unfold State.haltNarration
  by_cases hi : s.player.state = .idle
  · rw [if_pos hi]
    exact ⟨_, s.line.queue, s.faults, rfl, rfl, rfl, fun _ => rfl, fun hn => absurd hi hn, id⟩
  · rw [if_neg hi, handOver_enterTx (by decide)]
    obtain ⟨q, f, p, hent, -, hroom, hin, hlen, -⟩ := enterTx_free h ⟨.talkEnd, s.now, false, 0⟩
    rw [hent]
    exact ⟨_, q, f, rfl, rfl, rfl, fun hx => absurd hx hi, fun _ => hroom,
      fun hd => hd.enterTx (hin.imp_left Eq.symm) rfl Nat.zero_lt_one (hlen hd.length)⟩

/-! ## Drives (R116) -/

theorem haltDrives_frame (h : s.halted = true) :
    ∃ drives lamps share, s.haltDrives =
        { s with drives := drives, lamps := lamps, share := share, announceCheck := true } ∧
      (∀ d : Fin 4, drives[d] = s.drives[d].halted s.now) ∧ OutputsOnly s.lamps lamps := by
  obtain ⟨lamps, share, hrec, hout, -⟩ := recompute_frame
    (s := { s with drives := Vector.ofFn fun d : Fin 4 => s.drives[d].halted s.now }) (.inl h)
  exact ⟨_, lamps, share, hrec, fun d => Vector.getElem_ofFn _, hout⟩

theorem halted_rests (r : Drive) (now : Tick) :
    (r.halted now).state ≠ .moving ∧ (r.halted now).state ≠ .homing ∧ (r.halted now).state ≠ .pendingPower := by
  have h : (r.halted now).state = .idle ∨ (r.halted now).state = .unhomed ∨ (r.halted now).state = .faulted ∨
      (r.halted now).state = .track := by
    unfold Drive.halted
    cases hs : r.state with
    | moving => exact .inl rfl
    | homing => exact .inr (.inl rfl)
    | pendingPower =>
      unfold Drive.unstarted
      by_cases hp : r.pending = some .home
      · exact .inr (.inl (if_pos hp))
      · exact .inl (if_neg hp)
    | idle => exact .inl hs
    | unhomed => exact .inr (.inl hs)
    | faulted => exact .inr (.inr (.inl hs))
    | track => exact .inr (.inr (.inr hs))
  rcases h with h | h | h | h <;> rw [h] <;> decide

/-! ## The track (R123, R130) -/

/-- What an entry into HALTED makes of the track, its segment and its requester, and hands over for it. -/
structure TrackHalted (s t : State) : Prop where
  rest : ∃ track drives queue faults lamps share check requester, t =
    { s with
      track := track, drives := drives, line.queue := queue, faults := faults, lamps := lamps, share := share
      announceCheck := check, engine.trackRequester := requester }
  lamps : OutputsOnly s.lamps t.lamps
  stopped : t.track.running = false ∧ t.asking = false
  drives : ∀ j : Fin 4, (j = 3 → s.track.running = false) → t.drives[j] = s.drives[j]
  segment : s.track.running = true →
    t.drives[(3 : Fin 4)] =
      { s.drives[(3 : Fin 4)] with samples := [], blankingEnd := none, brakeUntil := some (s.now + 5) }
  handover : s.inHandover = true →
    t.track =
      { s.track with
        running := false, grantTimer := s.track.grantTimer.freeze s.now, settle := s.track.settle.freeze s.now }
  asked : s.asking = true → t.track.state = .holding ∧ t.track.peer = none ∧ t.engine.trackRequester = none
  frames : s.line.queue.length < 8 → ∀ x ∈ s.line.queue, x.isAsk = false → x ∈ t.line.queue
  release : s.asking = true → s.line.queue.length < 8 →
    ∃ x ∈ t.line.queue, x.body = .blockRelease (s.track.peer.getD 0) .cancel ∧ x.age = s.now
  room : Displaceable s.line.queue → Displaceable t.line.queue

theorem asking_iff : s.asking = true ↔ s.track.state = .askingPower ∨ s.track.state = .askingAsked := by
  unfold State.asking
  rw [Bool.or_eq_true, beq_iff_eq, beq_iff_eq]

theorem inHandover_iff : s.inHandover = true ↔ s.track.state = .sending ∨ s.track.state = .receiving := by
  unfold State.inHandover
  rw [Bool.or_eq_true, beq_iff_eq, beq_iff_eq]

theorem not_asking_of_inHandover (h : s.inHandover = true) : s.asking = false :=
  Bool.eq_false_iff.2 fun ha => by
    rcases inHandover_iff.1 h with h | h <;> rcases asking_iff.1 ha with ha | ha <;> rw [h] at ha <;> cases ha

theorem endAsk_halted (h : s.halted = true) :
    ∃ lamps share, s.endAsk =
        { s with
          track.state := .holding, track.peer := none, track.grantTimer := .stopped, track.retryTimer := none
          track.giveUpTimer := none, lamps := lamps, share := share, announceCheck := true } ∧
      OutputsOnly s.lamps lamps := by
  obtain ⟨lamps, share, hrec, hout, -⟩ := recompute_frame
    (s := State.dropEntry
      { s with
        track.state := .holding, track.peer := none, track.grantTimer := .stopped, track.retryTimer := none
        track.giveUpTimer := none } 3) (.inl h)
  exact ⟨lamps, share, hrec, hout⟩

/-- R123: the withdrawal of an ask while no scene runs. -/
theorem withdrawAsk_halted (h : s.halted = true) (hfree : AllFree s) (hidle : s.player.state = .idle)
    (hrun : s.track.running = false) (ha : s.asking = true) : TrackHalted s s.withdrawAsk := by
  have hq : ∃ q, (if s.asked then s.withdrawBlockAsk else s) = s.setTxQueue q ∧ q.length ≤ s.line.queue.length ∧
      (∀ x ∈ s.line.queue, x.isAsk = false → x ∈ q) ∧ (Displaceable s.line.queue → Displaceable q) := by
    split
    · refine ⟨_, rfl, List.length_filter_le _ _, fun x hx hask => List.mem_filter.2 ⟨hx, ?_⟩, fun h => h.filter _⟩
      rw [hask]
      rfl
    · exact ⟨s.line.queue, rfl, Nat.le_refl _, fun _ h _ => h, id⟩
  obtain ⟨q0, hv, hlen, hmem, hdis⟩ := hq
  obtain ⟨q, f, p, hent, hp, hroom, hin, hle, -⟩ :=
    enterTx_free (s := s.setTxQueue q0) hfree ⟨.blockRelease (s.track.peer.getD 0) .cancel, s.now, false, 0⟩
  have hrel : (s.setTxQueue q0).toPeer .cancel = { s with line.queue := q, faults := f } := by
    refine (handOver_enterTx (by show FrameKind.blockRelease ≠ .load; decide)).trans (hent.trans ?_)
    rw [hp (by rw [show (s.setTxQueue q0).player = s.player from rfl, hidle]; decide)]
    rfl
  obtain ⟨lamps, share, hask, hout⟩ := endAsk_halted (s := { s with line.queue := q, faults := f }) h
  have ht : s.withdrawAsk = forgetRequester (State.endAsk { s with line.queue := q, faults := f }) := by
    rw [withdrawAsk_eq, trackOutcome_eq]
    unfold withdrawnAsk
    rw [hv, hrel]
    refine completeAwaits_none _ fun k => AllFree.awaits ?_ .track k
    rw [hask]
    exact hfree
  have hnh : s.inHandover = false := Bool.eq_false_iff.2 fun hh => by
    rw [not_asking_of_inHandover hh] at ha
    cases ha
  rw [ht, hask]
  refine ⟨⟨_, _, _, _, _, _, _, _, rfl⟩, hout, ⟨hrun, rfl⟩, fun _ _ => rfl, fun hx => ?_, fun hx => ?_,
    fun _ => ⟨rfl, rfl, rfl⟩, fun hl x hx hna => ?_,
    fun _ hl => ⟨⟨.blockRelease (s.track.peer.getD 0) .cancel, s.now, false, 0⟩, ?_, rfl, rfl⟩, fun hd => ?_⟩
  · rw [hrun] at hx
    cases hx
  · rw [hnh] at hx
    cases hx
  · show x ∈ q
    rw [hroom (lt_of_le_of_lt hlen hl)]
    exact mem_insertTx_of_mem (hmem x hx hna)
  · show _ ∈ q
    rw [hroom (lt_of_le_of_lt hlen hl)]
    exact mem_insertTx _ _
  · have hd' := hdis hd
    exact hd'.enterTx (hin.imp_left Eq.symm) rfl Nat.zero_lt_one (hle hd'.length)

/-- R130: a handover under way. -/
theorem haltHandover (h : s.halted = true) (hh : s.inHandover = true) : TrackHalted s s.haltTrack := by
  have ha := not_asking_of_inHandover hh
  obtain ⟨drives, hstop, hother, hsame, hseg⟩ := stopSegment_frame s
  obtain ⟨lamps, share, hrec, hout, -⟩ := recompute_frame
    (s := { s with
      track.running := false, drives := drives, track.grantTimer := s.track.grantTimer.freeze s.now
      track.settle := s.track.settle.freeze s.now }) (.inl h)
  have ht : s.haltTrack = State.recompute
      { s with
        track.running := false, drives := drives, track.grantTimer := s.track.grantTimer.freeze s.now
        track.settle := s.track.settle.freeze s.now } := by
    unfold State.haltTrack
    rw [ha, if_neg Bool.false_ne_true, if_pos hh, hstop]
  rw [ht, hrec]
  refine ⟨⟨_, _, _, _, _, _, _, s.engine.trackRequester, rfl⟩, hout, ⟨rfl, ha⟩, fun j hj => ?_, fun hr => hseg hr,
    fun _ => rfl, fun hx => ?_, fun _ x hx _ => hx, fun hx => ?_, id⟩
  · show drives[j] = s.drives[j]
    by_cases hj3 : j = 3
    · rw [hsame (hj hj3)]
    · exact hother j hj3
  · rw [ha] at hx
    cases hx
  · rw [ha] at hx
    cases hx

theorem haltTrack_halted (h : s.halted = true) (hfree : AllFree s) (hidle : s.player.state = .idle)
    (hrun : s.track.running = true → s.inHandover = true) : TrackHalted s s.haltTrack := by
  by_cases hh : s.inHandover = true
  · exact haltHandover h hh
  · have hstopped : s.track.running = false := Bool.eq_false_iff.2 fun hr => hh (hrun hr)
    by_cases ha : s.asking = true
    · rw [show s.haltTrack = s.withdrawAsk from if_pos ha]
      exact withdrawAsk_halted h hfree hidle hstopped ha
    · rw [show s.haltTrack = s from (if_neg ha).trans (if_neg hh)]
      exact ⟨⟨_, _, _, _, _, _, _, _, rfl⟩, .refl _, ⟨hstopped, Bool.eq_false_iff.2 ha⟩, fun _ _ => rfl,
        fun hr => absurd (hrun hr) hh, fun hx => absurd hx hh, fun hx => absurd hx ha, fun _ x hx _ => hx,
        fun hx => absurd hx ha, id⟩

end Sys2Proof.Machine
end

section
/-! The entry into HALTED as a whole (R149), and a HALT frame (R150). -/

namespace Sys2Proof.Machine

variable {s t u v : State} {r : HaltReason}

/-- What the entry into HALTED makes of a state, whatever the station was doing. -/
structure EnteredHalt (s : State) (r : HaltReason) (t : State) : Prop where
  rest : ∃ engine lamps share player queue faults drives track works check, t =
    { s with
      halt := some r, engine := engine, lamps := lamps, share := share, player := player, line.queue := queue
      faults := faults, drives := drives, track := track, works := works, announceCheck := check }
  slots : AllFree t
  channelOwners : ∀ c : Fin 12, t.engine.channelOwners[c] = none
  driveOwners : ∀ d : Fin 4, t.engine.driveOwners[d] = none
  works : ∃ ns : List (Fin 64), t.works = s.works ++ ns.map .retake ∧ ns.length ≤ 4
  lamps : ∀ c : Fin 12, t.lamps[c] = { haltFaded s c with output := t.lamps[c].output }
  player : t.player.state = .idle ∧ t.player.queue = []
  stopped : t.track.running = false ∧ t.asking = false
  drives : ∀ d : Fin 4, (d = 3 → s.track.running = false) → t.drives[d] = s.drives[d].halted s.now
  segment : s.track.running = true →
    t.drives[(3 : Fin 4)] =
      { s.drives[(3 : Fin 4)].halted s.now with samples := [], blankingEnd := none, brakeUntil := some (s.now + 5) }
  handover : s.inHandover = true →
    t.track =
      { s.track with
        running := false, grantTimer := s.track.grantTimer.freeze s.now, settle := s.track.settle.freeze s.now }
  asked : s.asking = true → t.track.state = .holding ∧ t.track.peer = none ∧ t.engine.trackRequester = none
  talkEnd : s.line.queue.length < 7 → s.player.state ≠ .idle → ∃ x ∈ t.line.queue, x.body = .talkEnd ∧ x.age = s.now
  release : s.line.queue.length < 7 → s.asking = true →
    ∃ x ∈ t.line.queue, x.body = .blockRelease (s.track.peer.getD 0) .cancel ∧ x.age = s.now
  room : s.line.queue.length < 8 → Displaceable t.line.queue

/-- R24, R53, R73, R99, R116: the blocks before the track. -/
structure HaltedToTrack (s : State) (r : HaltReason) (t : State) : Prop where
  rest : ∃ engine lamps share player queue faults drives works check, t =
    { s with
      halt := some r, engine := engine, lamps := lamps, share := share, player := player, line.queue := queue
      faults := faults, drives := drives, works := works, announceCheck := check }
  slots : AllFree t
  channelOwners : ∀ c : Fin 12, t.engine.channelOwners[c] = none
  driveOwners : ∀ d : Fin 4, t.engine.driveOwners[d] = none
  works : ∃ ns : List (Fin 64), t.works = s.works ++ ns.map .retake ∧ ns.length ≤ 4
  lamps : ∀ c : Fin 12, t.lamps[c] = { haltFaded s c with output := t.lamps[c].output }
  player : t.player.state = .idle ∧ t.player.queue = []
  drives : ∀ d : Fin 4, t.drives[d] = s.drives[d].halted s.now
  silent : s.player.state = .idle → t.line.queue = s.line.queue
  talkEnd : s.player.state ≠ .idle → s.line.queue.length < 8 →
    t.line.queue = insertTx ⟨.talkEnd, s.now, false, 0⟩ s.line.queue
  room : Displaceable s.line.queue → Displaceable t.line.queue

theorem haltedToTrack (s : State) (r : HaltReason) :
    HaltedToTrack s r
      (State.haltDrives (State.haltNarration (State.haltAdmissions (State.haltFades
        (State.haltScenes { s with halt := some r }))))) := by
  obtain ⟨engine, ns, hscenes, hlen, hfree, hchannels, hdriveOwners⟩ := haltScenes_frame { s with halt := some r }
  rw [hscenes]
  generalize hw : ({ s with halt := some r } : State).works ++ ns.map Work.retake = works
  obtain ⟨lamps, share, check, hfades, hlamps⟩ :=
    haltFades_frame (s := { s with halt := some r, engine := engine, works := works }) rfl
  rw [hfades]
  obtain ⟨player, queue, faults, hnarr, hidle, hempty, hsilent, htalk, hroom⟩ := haltNarration_frame (s :=
    State.haltAdmissions
      { s with
        halt := some r, engine := engine, works := works, lamps := lamps, share := share, announceCheck := check }) hfree
  rw [hnarr]
  obtain ⟨drives, lamps', share', hdrv, hdrives, hout⟩ := haltDrives_frame (s :=
    { State.haltAdmissions
        { s with
          halt := some r, engine := engine, works := works, lamps := lamps, share := share, announceCheck := check } with
      player := player, line.queue := queue, faults := faults }) rfl
  rw [hdrv]
  refine ⟨⟨_, _, _, _, _, _, _, _, _, rfl⟩, hfree, hchannels, hdriveOwners, ⟨ns, hw.symm, hlen⟩, fun c => ?_,
    ⟨hidle, hempty⟩, hdrives, hsilent, htalk, hroom⟩
  show lamps'[c] = { haltFaded s c with output := lamps'[c].output }
  rw [hout c]
  show ({ lamps[c] with output := lamps'[c].output } : Lamp) = _
  rw [hlamps c]
  rfl

/-- R149: the entry into HALTED. -/
theorem enterHalt_entered (hsafe : s.track.running = true → s.inHandover = true) : EnteredHalt s r (s.enterHalt r) := by
  have hb := haltedToTrack s r
  unfold State.enterHalt
  generalize State.haltDrives (State.haltNarration (State.haltAdmissions (State.haltFades
    (State.haltScenes { s with halt := some r })))) = v at hb
  obtain ⟨engine, lamps, share, player, queue, faults, drives, works, check, hv⟩ := hb.rest
  have hhalt : v.halted = true := by rw [hv]; rfl
  have htrack : v.track = s.track := by rw [hv]
  have hnow : v.now = s.now := by rw [hv]; rfl
  have hh : v.inHandover = s.inHandover := by
    unfold State.inHandover
    rw [htrack]
  have ha : v.asking = s.asking := by
    unfold State.asking
    rw [htrack]
  have ht := haltTrack_halted hhalt hb.slots hb.player.1 (by rw [htrack, hh]; exact hsafe)
  obtain ⟨track, drives', queue', faults', lamps', share', check', requester, hrest⟩ := ht.rest
  have hengine : v.haltTrack.engine = { v.engine with trackRequester := requester } := by rw [hrest]
  refine ⟨⟨_, _, _, _, _, _, _, _, _, _, by rw [hrest, hv]⟩, ?_, ?_, ?_, ?_, fun c => ?_, ?_, ht.stopped, fun d hd => ?_,
    fun hr => ?_, fun hx => ?_, fun hx => ht.asked (ha.trans hx), fun hl hp => ?_, fun hl hx => ?_, fun hl => ?_⟩
  · unfold AllFree
    rw [hengine]
    exact hb.slots
  · rw [hengine]
    exact hb.channelOwners
  · rw [hengine]
    exact hb.driveOwners
  · rw [show v.haltTrack.works = v.works by rw [hrest]]
    exact hb.works
  · rw [ht.lamps c, hb.lamps c]
  · rw [show v.haltTrack.player = v.player by rw [hrest]]
    exact hb.player
  · rw [ht.drives d (by rw [htrack]; exact hd), hb.drives d]
  · rw [ht.segment (by rw [htrack]; exact hr), hb.drives 3, hnow]
  · rw [ht.handover (hh.trans hx), htrack, hnow]
  · have hq := hb.talkEnd hp (Nat.lt_succ_of_lt hl)
    refine ⟨⟨.talkEnd, s.now, false, 0⟩, ht.frames ?_ _ ?_ rfl, rfl, rfl⟩
    · rw [hq, insertTx_length]
      exact Nat.succ_lt_succ hl
    · rw [hq]
      exact mem_insertTx _ _
  · have hlen : v.line.queue.length < 8 := by
      by_cases hp : s.player.state = .idle
      · rw [hb.silent hp]
        exact Nat.lt_succ_of_lt hl
      · rw [hb.talkEnd hp (Nat.lt_succ_of_lt hl), insertTx_length]
        exact Nat.succ_lt_succ hl
    have := ht.release (ha.trans hx) hlen
    rwa [htrack, hnow] at this
  · exact ht.room (hb.room (.inl hl))

end Sys2Proof.Machine
end

section
/-! A HALT frame (R24, R53, R99, R116, R123, R130, R149, R150). -/

namespace Sys2Proof.Machine

variable {s t u v : State} {r : HaltReason}

/-! ## Works while HALTED (R5, R6) -/

/-- A work that starts no scene while HALTED. -/
def IdleWork (w : Work) : Prop := (∃ n, w = .retake n) ∨ ∃ n, w = .consider .start n

theorem consider_halted_frame (ev : TriggerEvent) (n : Fin 64) (h : s.halted = true) :
    ∃ inputs, s.consider ev n = { s with inputs := inputs } ∧ inputs.occupancy = s.inputs.occupancy := by
  unfold State.consider
  split
  · exact ⟨s.inputs, rfl, rfl⟩
  · rw [if_pos h]
    split
    · exact ⟨_, rfl, rfl⟩
    · exact ⟨s.inputs, rfl, rfl⟩

theorem take_idleWork {w : Work} (hw : IdleWork w) (h : s.halted = true) :
    ∃ inputs, s.take w = { s with inputs := inputs } ∧ inputs.occupancy = s.inputs.occupancy := by
  obtain ⟨n, rfl⟩ | ⟨n, rfl⟩ := hw
  · show ∃ inputs, s.retake n = _ ∧ _
    unfold State.retake
    split
    · exact ⟨s.inputs, rfl, rfl⟩
    · split
      · split
        · exact consider_halted_frame _ n h
        · exact ⟨s.inputs, rfl, rfl⟩
      · exact ⟨s.inputs, rfl, rfl⟩
  · exact consider_halted_frame _ n h

theorem settle_idleWorks : ∀ {ws : List Work} {s : State}, (∀ w ∈ ws, IdleWork w) → s.halted = true →
    ∃ inputs, State.settle ws.length (withWorks s ws) = some { s with inputs := inputs, works := [] } ∧
      inputs.occupancy = s.inputs.occupancy
  | [], s, _, _ => ⟨s.inputs, settle_done 0 rfl, rfl⟩
  | w :: ws, s, hw, h => by
    obtain ⟨inputs, htake, hocc⟩ := take_idleWork (s := withWorks s []) (hw w List.mem_cons_self) h
    obtain ⟨inputs', hrest, hocc'⟩ := settle_idleWorks (ws := ws) (s := { s with inputs := inputs })
      (fun x hx => hw x (List.mem_cons_of_mem _ hx)) h
    refine ⟨inputs', ?_, hocc'.trans hocc⟩
    rw [List.length_cons, settle_cons _ rfl, withWorks_withWorks, htake]
    exact hrest

/-! ## HALTED at rest (R149) -/

theorem haltedDrive_state {d : Fin 4} (h : EnteredHalt s r t) : t.drives[d].state = (s.drives[d].halted s.now).state := by
  by_cases hd : d = 3 → s.track.running = false
  · rw [h.drives d hd]
  · obtain ⟨rfl, hr⟩ := Classical.not_imp.1 hd
    rw [h.segment (by simpa using hr)]

theorem EnteredHalt.haltSafe (h : EnteredHalt s r t) (he : u.engine = t.engine) (hp : u.player = t.player)
    (hd : u.drives = t.drives) (ht : u.track = t.track) : HaltSafe u where
  slots _ := by
    rw [he]
    exact h.slots
  player _ := by
    rw [hp]
    exact h.player
  drives _ d := by
    rw [hd, haltedDrive_state h]
    exact halted_rests _ _
  track _ := by
    have ha : u.asking = t.asking := by
      unfold State.asking
      rw [ht]
    rw [ha, ht]
    exact h.stopped

theorem EnteredHalt.halt (h : EnteredHalt s r t) : t.halt = some r := by
  obtain ⟨engine, lamps, share, player, queue, faults, drives, track, works, check, ht⟩ := h.rest
  rw [ht]

theorem EnteredHalt.memory (h : EnteredHalt s r t) : t.memory = s.memory := by
  obtain ⟨engine, lamps, share, player, queue, faults, drives, track, works, check, ht⟩ := h.rest
  rw [ht]

/-- R53: the halt fade of a used channel. -/
theorem haltFaded_fields {c : Fin 12} {l : Lamp} (hc : s.settings.channels[c].rating ≠ 0)
    (h : l = { haltFaded s c with output := l.output }) :
    l.fading = true ∧ l.fadeStart = s.lamps[c].programmed ∧ l.target = s.settings.channels[c].haltLevel ∧
      l.steps = 100 ∧ l.requester = none := by
  have hu : s.used c = true := by
    unfold State.used
    simpa using hc
  unfold haltFaded at h
  rw [if_pos hu] at h
  rw [h]
  exact ⟨rfl, rfl, rfl, rfl, rfl⟩

/-- R116: a drive at the entry into HALTED, by its state. -/
theorem halted_eq (q : Drive) (now : Tick) :
    q.halted now =
      let braked : Drive :=
        { q with
          braking := false, stillTimer := none, stallTimer := none, samples := [], blankingEnd := none
          brakeUntil := some (now + 5), requester := none }
      match q.state with
      | .moving => { braked with state := .idle }
      | .homing => { braked with state := .unhomed }
      | .pendingPower =>
        { q with state := if q.pending = some .home then .unhomed else .idle, pending := none, requester := none }
      | _ => q := by
  cases q with
  | mk state => cases state <;> rfl

theorem exec_haltReceived {f : Frame} (h : Hears s .halt f) :
    exec (.haltReceived f) s = event (fun _ => (s.hearPeer f.source).haltFrame) s :=
  event_congr (receive_heard h _)

/-- A halt by a frame, to the end of its event. -/
theorem event_halted (h : EnteredHalt s r t) (hw : s.works = []) :
    ∃ inputs, event (fun _ => t.recordHalted r) v =
        .next (State.announce { t.recordHalted r with inputs := inputs, works := [] }) ∧
      inputs.occupancy = s.inputs.occupancy := by
  obtain ⟨ns, hworks, hlen⟩ := h.works
  obtain ⟨engine, lamps, share, player, queue, faults, drives, track, works, check, ht⟩ := h.rest
  have hhalt : (t.recordHalted r).halted = true := by rw [ht]; rfl
  have hidle : ∀ w ∈ ns.map Work.retake, IdleWork w := fun w hm => by
    obtain ⟨n, -, rfl⟩ := List.mem_map.1 hm
    exact .inl ⟨n, rfl⟩
  obtain ⟨inputs, hsettle, hocc⟩ := settle_idleWorks hidle hhalt
  rw [withWorks_self (show (t.recordHalted r).works = _ by
    rw [show (t.recordHalted r).works = t.works from rfl, hworks, hw, List.nil_append])] at hsettle
  refine ⟨inputs, event_ends (body := fun _ => t.recordHalted r) rfl hsettle ?_, hocc.trans ?_⟩
  · rw [List.length_map]
    exact hlen.trans (by decide)
  · rw [ht]
    rfl

/-- Settles O51: every block at the entry into HALTED, and the checks it raises refused. -/
theorem haltFrameHaltsStation : Obligations.HaltFrameHaltsStation := by
  intro s f hears hsafe
  rw [exec_haltReceived hears]
  refine ⟨fun hh => ?_, fun hh => ?_⟩
  · have hhalted : (s.hearPeer f.source).halted = true := Option.isSome_iff_ne_none.2 hh
    exact event_quiet (if_pos hhalted) ⟨hears.ready.settled.noWorks, hears.ready.settled.noCheck⟩
  · intro frozen
    have hrunning : (s.hearPeer f.source).halted ≠ true := by
      show s.halt.isSome ≠ true
      rw [hh]
      decide
    have hentered := enterHalt_entered (s := s.hearPeer f.source) (r := .line) hsafe.running
    have hbody : (s.hearPeer f.source).haltFrame = ((s.hearPeer f.source).enterHalt .line).recordHalted .line :=
      if_neg hrunning
    rw [hbody]
    generalize (s.hearPeer f.source).enterHalt .line = t at hentered
    obtain ⟨inputs, hevent, hocc⟩ := event_halted (v := s) hentered hears.ready.settled.noWorks
    refine ⟨_, hevent, ?_, hentered.haltSafe (announce_engine _) (announce_player _) (announce_drives _) (announce_track _),
      fun c => ?_, fun d => ?_, fun c hc => ?_, fun d hst hd => ?_, fun hst hr => ?_, fun hx => ?_, fun hx => ?_,
      fun hl => ⟨fun hp => ?_, fun hx => ?_⟩, ?_, ?_, ?_⟩
    · rw [announce_halt]
      exact hentered.halt
    · rw [announce_engine]
      exact hentered.channelOwners c
    · rw [announce_engine]
      exact hentered.driveOwners d
    · rw [announce_lamps]
      exact haltFaded_fields (by exact hc) (hentered.lamps c)
    · intro q braked
      rw [announce_drives]
      exact (hentered.drives d hd).trans (halted_eq _ _)
    · rw [announce_drives]
      refine (hentered.segment hr).trans ?_
      have htrack : s.drives[(3 : Fin 4)].halted s.now = s.drives[(3 : Fin 4)] := by
        unfold Drive.halted
        rw [hst]
      show ({ s.drives[(3 : Fin 4)].halted s.now with samples := _, blankingEnd := _, brakeUntil := _ } : Drive) = _
      rw [htrack]
      rfl
    · have hfreeze : ∀ x : HaltTimer, x.freeze s.now = frozen x := fun x => by cases x <;> rfl
      rw [announce_track, ← hfreeze, ← hfreeze]
      exact hentered.handover hx
    · rw [announce_track, announce_engine]
      exact hentered.asked hx
    · obtain ⟨x, hx, hb, hage⟩ := hentered.talkEnd hl hp
      refine ⟨x, mem_announce_queue hx ?_, hb, hage⟩
      unfold TxEntry.isLoad
      rw [hb]
      rfl
    · obtain ⟨x, hx, hb, hage⟩ := hentered.release hl hx
      refine ⟨x, mem_announce_queue hx ?_, hb, hage⟩
      unfold TxEntry.isLoad
      rw [hb]
      rfl
    · exact NewestRecord.mem_announce (newest_recordFault t .halted 1) (by decide)
    · rw [announce_inputs]
      exact hocc
    · rw [announce_memory]
      exact hentered.memory

end Sys2Proof.Machine
end

section
/-! The ends of MUTE and of joining, a scene on START, and the stuck line (R4, R7, R76, R137, R145, R146, R152). -/

namespace Sys2Proof.Machine

variable {s t u v : State} {r : HaltReason}

/-! ## Announcements that are not due (R75) -/

theorem announce_undue (h : s.announcementDue = false) : s.announce = { s with announceCheck := false } := by
  unfold State.announce
  split
  · exact if_neg (by rw [show State.announcementDue { s with announceCheck := false } = s.announcementDue from rfl, h]; decide)
  · rename_i hc
    rw [← Bool.eq_false_iff.2 hc]

theorem not_due_fresh {a : Announcement} (h : s.share.lastAnnouncement = some a) (ht : a.time = s.now) :
    s.announcementDue = false := by
  unfold State.announcementDue
  rw [h]
  simp [ht]

theorem not_due_silent (h : s.line.state = .silent) : s.announcementDue = false := by
  unfold State.announcementDue
  rw [h]
  rfl

/-! ## The line becomes ACTIVE (R76, R91, R137, R145) -/

theorem playerLineChanged_active (h : s.line.state = .active) (hq : s.player.queue = []) : s.playerLineChanged = s :=
  (if_pos h).trans (checkStart_empty hq)

theorem becomeActive_frame (hn : NothingWaits s) (hq : s.player.queue = []) (hl : s.line.state = .joining) :
    ∃ lamps share queue held faults, s.becomeActive =
        { s with
          line.state := .active, lamps := lamps, share := share, line.queue := queue, line.heldLoad := held
          faults := faults, announceCheck := true } ∧
      (∃ a, share.lastAnnouncement = some a ∧ a.time = s.now ∧ a.halted = s.halted) ∧
      (s.line.queue.length < 8 → ∃ x ∈ queue, x.isLoad = true) ∧
      (∀ x ∈ s.line.queue, x.isLoad = false → x ∈ queue) ∧
      (faults = s.faults ∨ faults = (s.recordFault .lineOverrun 3).faults) := by
  obtain ⟨lamps, share, hrec, -⟩ := recompute_frame (s := { s with line.state := .active }) hn
  obtain ⟨a, queue, held, faults, hload, ha, hkeep, -, hin, hf⟩ := handOverLoad_frame
    { s with line.state := .active, lamps := lamps, share := share, announceCheck := true }
  have hactive : s.becomeActive =
      State.playerLineChanged
        (State.handOverLoad { s with line.state := .active, lamps := lamps, share := share, announceCheck := true }) := by
    unfold State.becomeActive
    rw [if_pos hl, hrec]
  refine ⟨lamps, { share with lastAnnouncement := some a }, queue, held, faults, hactive.trans ?_,
    ⟨a, rfl, by rw [ha]; rfl, by rw [ha]; rfl⟩, hin, hkeep, hf⟩
  rw [hload]
  exact playerLineChanged_active rfl hq

theorem becomeActive_silent (hl : s.line.state = .silent) : s.becomeActive = s :=
  if_neg (by rw [hl]; decide)

/-! ## START (R4, R7) -/

theorem considerations_length (ev : TriggerEvent) : (s.considerations ev).length ≤ 64 :=
  (List.length_filterMap_le _ _).trans (by rw [List.length_finRange])

theorem mem_considerations_start {w : Work} (h : w ∈ s.considerations .start) : ∃ n, w = .consider .start n := by
  obtain ⟨n, -, hn⟩ := List.mem_filterMap.1 h
  split at hn
  · split at hn
    · exact ⟨n, (Option.some.inj hn).symm⟩
    · cases hn
  · cases hn

theorem considerations_congr (ev : TriggerEvent) (h : t.engine.scenes = s.engine.scenes) :
    t.considerations ev = s.considerations ev := by
  unfold State.considerations State.scene?
  rw [h]

/-- R5: a station that is HALTED refuses its START scenes. -/
theorem settle_start_refused (hw : u.works = []) (h : u.considerations .start = [] ∨ u.halt ≠ none) :
    ∃ n ≤ 1000, State.settle n (u.raiseTrigger .start) = some u := by
  rcases h with h | h
  · exact ⟨0, by decide, by rw [State.raiseTrigger, h, raise_nil]; exact settle_done 0 hw⟩
  · have hidle : ∀ w ∈ u.considerations .start, (withWorks u []).take w = withWorks u [] := fun w hm => by
      obtain ⟨n, rfl⟩ := mem_considerations_start hm
      show (withWorks u []).consider .start n = _
      unfold State.consider
      split
      · rfl
      · exact if_pos (Option.isSome_iff_ne_none.2 h)
    refine ⟨(u.considerations .start).length, (considerations_length .start).trans (by decide), ?_⟩
    rw [State.raiseTrigger, raise_of_none _ hw, settle_idle hidle, withWorks_self hw]

theorem settle_start_starts {n : Fin 64} {sc : Scene} {first : StepRecord} {k : Fin 4} (hw : u.works = [])
    (h : u.considerations .start = [.consider .start n]) (hst : Starts u n sc first k) :
    State.settle 1 (u.raiseTrigger .start) = some (startedIn u n sc first k) := by
  rw [State.raiseTrigger, h, raise_of_none _ hw]
  refine settle_one ?_ hw
  rw [withWorks_self hw]
  exact take_consider_starts .start hst (by simp)

/-! ## The end of joining (R145, R152) -/

theorem exec_joiningTimerExpiry {e : Tick} (hr : Ready s) (ht : s.line.joiningTimer = some e) (he : e ≤ s.now) :
    exec .joiningTimerExpiry s = event State.endJoining s := by
  refine if_pos ?_
  unfold State.joiningDue reached
  rw [inShow_of_ready hr, ht]
  simpa using he

theorem exec_muteTimerExpiry {e : Tick} (hr : Ready s) (hl : s.line.state = .mute) (ht : s.line.muteTimer = some e)
    (he : e ≤ s.now) : exec .muteTimerExpiry s = event State.endMute s := by
  refine if_pos ?_
  unfold State.muteDue reached
  rw [inShow_of_ready hr, hl, ht]
  simpa using he

theorem joiningHaltCheck_none {flag : Bool} (h : s.halt ≠ none ∨ (flag = false ∧ s.stopLevel = false)) :
    s.joiningHaltCheck flag = s := by
  unfold State.joiningHaltCheck
  rcases h with h | ⟨hf, hs⟩
  · exact if_pos (Option.isSome_iff_ne_none.2 h)
  · rw [hf, hs]
    split <;> rfl

/-- The line and the announcement at the end of joining, while HALTED. -/
theorem becomeActive_halted {x : State} (hl : s.line.state = .joining ∨ s.line.state = .silent)
    (hx : x.line.state = s.line.state) (hnow : x.now = s.now) (hh : x.halted = true) (hq : x.player.queue = [])
    (hrec : NewestRecord x.faults .halted (BitVec.ofNat 8 (haltReasonCode r))) :
    ∃ l lamps share queue held faults check, x.becomeActive =
        { x with
          line.state := l, lamps := lamps, share := share, line.queue := queue, line.heldLoad := held
          faults := faults, announceCheck := check } ∧
      l = (if s.line.state = .joining then .active else .silent) ∧ x.becomeActive.announcementDue = false ∧
      (∃ y ∈ faults.records, y.kind = .halted ∧ y.detail = BitVec.ofNat 8 (haltReasonCode r)) ∧
      (s.line.state = .joining → ∃ a, share.lastAnnouncement = some a ∧ a.time = s.now ∧ a.halted = true) ∧
      ∀ y ∈ x.line.queue, y.isLoad = false → y ∈ queue := by
  rcases hl with hl | hl
  · obtain ⟨lamps, share, queue, held, faults, hb, ⟨a, ha, htime, hhalted⟩, -, hkeep, hf⟩ :=
      becomeActive_frame (.inl hh) hq (hx.trans hl)
    refine ⟨_, lamps, share, queue, held, faults, _, hb, (if_pos hl).symm, ?_, ?_,
      fun _ => ⟨a, ha, htime.trans hnow, hhalted.trans hh⟩, hkeep⟩
    · rw [hb]
      exact not_due_fresh (a := a) ha htime
    · rcases hf with rfl | rfl
      · exact hrec.mem
      · exact hrec.mem_recordFault (by decide) 3
  · have hb := becomeActive_silent (hx.trans hl)
    refine ⟨x.line.state, x.lamps, x.share, x.line.queue, x.line.heldLoad, x.faults, x.announceCheck, hb, ?_, ?_, hrec.mem,
      fun h => ?_, fun _ hy _ => hy⟩
    · rw [hx, hl]
      rfl
    · rw [hb]
      exact not_due_silent (hx.trans hl)
    · rw [hl] at h
      cases h

/-- The end of joining when the halt check has entered HALTED. -/
theorem endJoining_halted {x : State} (hr : Ready s) (hl : s.line.state = .joining ∨ s.line.state = .silent)
    (h : EnteredHalt { s with line.joiningTimer := none } r t)
    (hx : ∃ queue faults, x = { t with line.queue := queue, faults := faults })
    (hrec : NewestRecord x.faults .halted (BitVec.ofNat 8 (haltReasonCode r)))
    (hcheck : State.joiningHaltCheck { s with line.joiningTimer := none } s.line.joiningHalt = x) :
    ∃ u, event State.endJoining s = .next u ∧ u.halt = some r ∧ HaltSafe u ∧ u.line.joiningTimer = none ∧
      u.line.state = (if s.line.state = .joining then .active else .silent) ∧
      (∃ y ∈ u.faults.records, y.kind = .halted ∧ y.detail = BitVec.ofNat 8 (haltReasonCode r)) ∧
      (s.line.state = .joining → ∃ a, u.share.lastAnnouncement = some a ∧ a.time = s.now ∧ a.halted = true) ∧
      ∀ y ∈ x.line.queue, y.isLoad = false → y ∈ u.line.queue := by
  obtain ⟨ns, hworks, hlen⟩ := h.works
  obtain ⟨engine, lamps, share, player, queue, faults, drives, track, works, check, ht⟩ := h.rest
  obtain ⟨queue', faults', hx⟩ := hx
  have hhalt : x.halt = some r := by rw [hx, ht]
  obtain ⟨l, lamps', share', queue', held, faults', check', hb, hstate, hdue, hfault, hfresh, hkeep⟩ :=
    becomeActive_halted (x := x) hl (by rw [hx, ht]) (by rw [hx, ht]; rfl) (halted_of_halt hhalt)
      (by rw [hx]; exact h.player.2) hrec
  generalize hbd : x.becomeActive = b at hb hdue
  have hbh : b.halted = true := by rw [hb]; exact halted_of_halt hhalt
  have hbw : b.works = ns.map .retake := by
    rw [hb]
    show x.works = _
    rw [hx]
    show t.works = _
    rw [hworks]
    show s.works ++ _ = _
    rw [hr.settled.noWorks, List.nil_append]
  have hidle : ∀ w ∈ b.works ++ b.considerations .start, IdleWork w := fun w hw => by
    rcases List.mem_append.1 hw with hw | hw
    · rw [hbw] at hw
      obtain ⟨n, -, rfl⟩ := List.mem_map.1 hw
      exact .inl ⟨n, rfl⟩
    · exact .inr (mem_considerations_start hw)
  obtain ⟨inputs, hsettle, -⟩ := settle_idleWorks hidle hbh
  have hbody : s.endJoining = withWorks b (b.works ++ b.considerations .start) := by
    unfold State.endJoining
    simp only []
    rw [hcheck, hbd]
    rfl
  have hcount : (b.works ++ b.considerations .start).length ≤ 1000 := by
    rw [List.length_append, hbw, List.length_map]
    have := considerations_length (s := b) .start
    omega
  refine ⟨_, event_ends hbody hsettle hcount, ?_⟩
  rw [announce_undue (s := { b with inputs := inputs, works := [] }) hdue]
  refine ⟨?_, h.haltSafe ?_ ?_ ?_ ?_, ?_, ?_, ?_, fun hj => ?_, fun y hy hl => ?_⟩
  · rw [hb]
    exact hhalt
  · rw [hb, hx]
  · rw [hb, hx]
  · rw [hb, hx]
  · rw [hb, hx]
  · rw [hb, hx, ht]
  · rw [hb]
    exact hstate
  · rw [hb]
    exact hfault
  · rw [hb]
    exact hfresh hj
  · rw [hb]
    exact hkeep y hy hl

theorem sendHalt_entered {t : State} (h : EnteredHalt s r t) :
    ∃ queue faults, t.sendHalt = { t with line.queue := queue, faults := faults } ∧
      (s.line.queue.length < 8 → ∃ y ∈ queue, y.body = .halt .stopInput ∧ y.isLoad = false) := by
  obtain ⟨queue, faults, p, hent, hp, -, -, -, hin⟩ := enterTx_free h.slots ⟨.halt .stopInput, t.now, false, 0⟩
  refine ⟨queue, faults, ?_, fun hl => ⟨_, hin rfl (h.room hl), rfl, rfl⟩⟩
  have hp : p = t.player := hp (by rw [h.player.1]; decide)
  refine (handOver_enterTx (by decide)).trans (hent.trans ?_)
  rw [hp]

/-- Settles O57: the line timers, the halt check between them, and the stuck line. -/
theorem lineTimersAndStuckLine : Obligations.LineTimersAndStuckLine := by
  intro s e hr he noEntry
  refine ⟨fun hl ht hq hn => ?_, fun hl ht hno hq hn hlen => ?_, fun hl ht hno => ?_, fun hl ht hh hsafe => ?_, ?_, ?_⟩
  · rw [exec_muteTimerExpiry hr hl ht he]
    obtain ⟨lamps, share, hrec, -⟩ := recompute_frame
      (s := { s with line.errors := 0, line.muteTimer := none, line.state := .active }) hn
    have hmute : s.endMute =
        { s with
          line.errors := 0, line.muteTimer := none, line.state := .active, lamps := lamps, share := share
          announceCheck := true } := by
      unfold State.endMute State.setLineState
      simp only []
      rw [hrec]
      exact playerLineChanged_active rfl hq
    exact ⟨_, event_ends hmute (settle_done 0 hr.settled.noWorks) (by decide), announce_line_state _,
      announce_line_errors _, announce_line_muteTimer _, announce_engine _, announce_player _, announce_drives _⟩
  · intro joins
    generalize hj : ({ s with line.joiningTimer := none } : State) = j
    obtain ⟨lamps, share, queue, held, faults, hb, ⟨a, ha, htime, hhalted⟩, hload, -, -⟩ :=
      becomeActive_frame (s := j) (by rw [← hj]; exact hn) (by rw [← hj]; exact hq) (by rw [← hj]; exact hl)
    have hbody : s.endJoining = j.becomeActive.raiseTrigger .start := by
      unfold State.endJoining
      simp only []
      rw [hj, joiningHaltCheck_none (by rw [← hj]; exact hno)]
    generalize j.becomeActive = b at hb hbody
    have hbw : b.works = [] := by rw [hb, ← hj]; exact hr.settled.noWorks
    have hcons : b.considerations .start = s.considerations .start := considerations_congr .start (by rw [hb, ← hj])
    have facts {engine : SceneEngine} {n : Nat} (hn : n ≤ 1000)
        (h : State.settle n (b.raiseTrigger .start) = some { b with engine := engine }) : joins engine := by
      refine ⟨_, (exec_joiningTimerExpiry hr ht he).trans (event_ends hbody h hn), ?_⟩
      rw [announce_undue (s := { b with engine := engine })
        (not_due_fresh (a := a) (by rw [hb]; exact ha) (by rw [hb]; exact htime)), hb, ← hj]
      refine ⟨rfl, rfl, hload (by rw [← hj]; exact hlen), ⟨a, ha, ?_, ?_⟩, rfl, rfl, rfl⟩
      · rw [htime, ← hj]
        rfl
      · rw [hhalted, ← hj]
        rfl
    refine ⟨fun h => ?_, fun n sc first k hc hst => ?_⟩
    · obtain ⟨n, hn, hs⟩ := settle_start_refused hbw (by rw [hcons, hb, ← hj]; exact h)
      refine facts hn (hs.trans ?_)
      rw [hb, ← hj]
    · have hst' : Starts b n sc first k := hst.congr (by rw [hb, ← hj]) (by rw [hb, ← hj]) (by rw [hb, ← hj])
        (by rw [hb, ← hj]) (by rw [hb, ← hj])
      refine facts (n := 1) (by decide) ((settle_start_starts hbw (hcons.trans hc) hst').trans ?_)
      rw [hb, ← hj]
      rfl
  · intro ended
    have hended : Settled ended := ⟨hr.settled.noWorks, hr.settled.noCheck⟩
    have hbody : s.endJoining = ended.raiseTrigger .start := by
      unfold State.endJoining
      simp only []
      rw [joiningHaltCheck_none (by exact hno), becomeActive_silent (by exact hl)]
    rw [exec_joiningTimerExpiry hr ht he]
    refine ⟨fun h => ?_, fun n sc first k hc hst => ?_⟩
    · obtain ⟨n, hn, hs⟩ := settle_start_refused (u := ended) hended.noWorks h
      rw [event_ends hbody hs hn, announce_none hended.noCheck]
    · exact event_trigger_starts hbody hended hc (hst.congr rfl rfl rfl rfl rfl) (by simp)
  · intro enters
    have hnh : State.halted { s with line.joiningTimer := none } ≠ true := by
      show s.halt.isSome ≠ true
      rw [hh]
      decide
    refine ⟨fun hstop => ?_, fun hstop hflag => ?_⟩
    · have hent := enterHalt_entered (s := { s with line.joiningTimer := none }) (r := .stopInput) hsafe.running
      have hcheck : State.joiningHaltCheck { s with line.joiningTimer := none } s.line.joiningHalt =
          (State.sendHalt (State.enterHalt { s with line.joiningTimer := none } .stopInput)).recordHalted .stopInput :=
        (if_neg hnh).trans (if_pos hstop)
      generalize State.enterHalt { s with line.joiningTimer := none } .stopInput = t at hent hcheck
      obtain ⟨queue, faults, hsend, hmem⟩ := sendHalt_entered hent
      obtain ⟨u, hevent, hhalt, hsafe', htimer, hstate, hrec, hfresh, hkeep⟩ :=
        endJoining_halted hr hl hent ⟨queue, _, by rw [hsend]; rfl⟩ (newest_recordFault _ _ _) hcheck
      refine ⟨u, ⟨(exec_joiningTimerExpiry hr ht he).trans hevent, hhalt, hsafe', htimer, hstate, hrec, hfresh⟩,
        fun hlen => ?_⟩
      obtain ⟨y, hy, hbody, hload⟩ := hmem hlen
      refine ⟨y, hkeep y ?_ hload, hbody⟩
      rw [hsend]
      exact hy
    · have hent := enterHalt_entered (s := { s with line.joiningTimer := none }) (r := .line) hsafe.running
      have hcheck : State.joiningHaltCheck { s with line.joiningTimer := none } s.line.joiningHalt =
          (State.enterHalt { s with line.joiningTimer := none } .line).recordHalted .line :=
        (if_neg hnh).trans ((if_neg (by
          show ¬s.stopLevel = true
          rw [hstop]
          decide)).trans (if_pos hflag))
      generalize State.enterHalt { s with line.joiningTimer := none } .line = t at hent hcheck
      obtain ⟨u, hevent, hhalt, hsafe', htimer, hstate, hrec, hfresh, -⟩ :=
        endJoining_halted hr hl hent ⟨t.line.queue, _, rfl⟩ (newest_recordFault _ _ _) hcheck
      exact ⟨u, (exec_joiningTimerExpiry hr ht he).trans hevent, hhalt, hsafe', htimer, hstate, hrec, hfresh⟩
  · show execLineStuck s = _
    unfold execLineStuck
    rw [inShow_of_ready hr]
    cases s.line.stuckHold <;> rfl
  · exact if_pos (inShow_of_ready hr)

end Sys2Proof.Machine
end

section
/-! The invariant of the machine: the state right after reset meets it, and every step keeps it (R34, R85, R138, R143,
R153, R159, R165). -/

namespace Sys2Proof.Machine

variable {s t u : State}

/-! ## What an operation keeps of the invariant -/

theorem Inv.after (h : Inv s) (hk : KeepsBay s t) (ht : Settled t) : Inv t where
  settled := ht
  bounded := hk.bounded h.bounded
  memory := hk.memory ▸ h.memory
  row row e ho := h.row row e (hk.port ▸ ho)
  bay := hk.bay h.bay

/-- An operation that adds no work and no check. -/
theorem Inv.keeps (h : Inv s) (hk : Keeps s t) (hq : Quietly s t) : Inv t :=
  h.after hk.toBay ⟨hq.1.trans h.settled.noWorks, hq.2.trans h.settled.noCheck⟩

/-- What the invariant reads of a state, the show time apart. -/
theorem Inv.congr (h : Inv s) (hw : t.works = s.works ∧ t.announceCheck = s.announceCheck) (hl : t.sizes = s.sizes)
    (hm : t.memory = s.memory) (hp : t.port = s.port) (hi : t.inputs = s.inputs) (hs : t.phase = s.phase) : Inv t where
  settled := ⟨hw.1.trans h.settled.noWorks, hw.2.trans h.settled.noCheck⟩
  bounded := by
    simp only [State.sizes, Prod.mk.injEq] at hl
    obtain ⟨hr, hf, hq, hps⟩ := hl
    exact ⟨hr ▸ h.bounded.records, hf ▸ h.bounded.frames, hq ▸ h.bounded.requests, hps ▸ h.bounded.peers⟩
  memory := hm ▸ h.memory
  row row e ho := h.row row e (hp ▸ ho)
  bay := by
    have hshow : t.inShow = s.inShow := by unfold State.inShow; rw [hs]
    exact ⟨hi ▸ h.bay.range, hi ▸ h.bay.occupied, hshow ▸ hi ▸ h.bay.quiet, hshow ▸ hi ▸ h.bay.idle⟩

/-- R34: an empty bay, whose idle timer runs while the Input Unit does. -/
theorem bayAgrees_empty (ho : s.inputs.occupancy = 0) (hb : s.inputs.bay = .empty) (hq : s.inputs.quietTimer = none)
    (hi : s.inShow = true → s.inputs.idleTimer.isSome = true) : BayAgrees s where
  range := by omega
  occupied := by simp [hb, ho]
  quiet _ := by simp [hb, hq]
  idle h := by simp [hb, hi h]

/-- A change of the port and of the show memory. -/
theorem Inv.withPort (h : Inv s) {m : List Host.Cell} {p : Port} (hm : Memory.wf m = true)
    (hp : ∀ row e, p.operation = some (.commit row, e) → row + 256 ≤ Memory.size) :
    Inv { s with memory := m, port := p } :=
  ⟨⟨h.settled.noWorks, h.settled.noCheck⟩,
    ⟨h.bounded.records, h.bounded.frames, h.bounded.requests, h.bounded.peers⟩, hm, hp,
    ⟨h.bay.range, h.bay.occupied, h.bay.quiet, h.bay.idle⟩⟩

/-- Every next state that an outcome can be meets the invariant. -/
def LeadsToInv (o : Host.Outcome State Fault Refusal) : Prop := ∀ t, o = .next t → Inv t

theorem LeadsToInv.next (h : Inv t) : LeadsToInv (.next t) := fun _ ht => by cases ht; exact h

theorem LeadsToInv.ite {p : Prop} [Decidable p] {a b : Host.Outcome State Fault Refusal} (ha : p → LeadsToInv a)
    (hb : LeadsToInv b) : LeadsToInv (if p then a else b) := by
  split
  · rename_i hp
    exact ha hp
  · exact hb

theorem leadsToInv_event_bay {body : State → State} (h : Inv s) (hb : KeepsBay s (body s)) :
    LeadsToInv (event body s) :=
  fun _ ht => h.after (keepsBay_event hb ht) (event_settled ht)

theorem leadsToInv_event {body : State → State} (h : Inv s) (hb : Keeps s (body s)) : LeadsToInv (event body s) :=
  leadsToInv_event_bay h hb.toBay

/-- An event that is taken on a condition, and has no effect otherwise. -/
theorem leadsToInv_due {body : State → State} {p : Prop} [Decidable p] (h : Inv s) (hb : Keeps s (body s)) :
    LeadsToInv (if p then event body s else .next s) :=
  .ite (fun _ => leadsToInv_event h hb) (.next h)

/-! ## Restarts (R156 to R158, R161) -/

/-- The station at its values without a configuration. -/
theorem inv_blank {p : Phase} (hp : p ≠ .running) (hm : Memory.wf s.memory = true) (hf : s.faults.records.length ≤ 8) :
    Inv (s.blank p) where
  settled := ⟨rfl, rfl⟩
  bounded := ⟨hf, Nat.zero_le _, Nat.zero_le _, Nat.zero_le _⟩
  memory := hm
  row _ _ h := by cases h
  bay := bayAgrees_empty rfl rfl rfl fun h => absurd h (by simpa [State.inShow, State.blank] using hp)

theorem Inv.recordFault (h : Inv s) (kind : FaultKind) (detail : Nat) : Inv (s.recordFault kind detail) :=
  h.keeps (keeps_recordFault s kind detail) ⟨rfl, rfl⟩

theorem Inv.inMaintenance (h : Inv s) : Inv { s with phase := .maintenance } where
  settled := ⟨h.settled.noWorks, h.settled.noCheck⟩
  bounded := ⟨h.bounded.records, h.bounded.frames, h.bounded.requests, h.bounded.peers⟩
  memory := h.memory
  row := h.row
  bay := ⟨h.bay.range, h.bay.occupied, fun hs => absurd hs (by simp [State.inShow]),
    fun hs => absurd hs (by simp [State.inShow])⟩

/-- R40, R157: at the start of the show the bay is EMPTY, with its idle timer running. -/
theorem Inv.startShow (h : Inv s) (levels : Levels) : Inv (s.startShow levels) := by
  unfold State.startShow
  simp only []
  obtain ⟨hk, hq⟩ := keeps_readScenes
    { State.indicators { s with phase := .running, settings := readSettings s.memory } with
      inputs := InputUnit.atStart (readSettings s.memory) levels }
  generalize State.readScenes _ = v at hk hq
  have hb := hk.bounded ⟨h.bounded.records, h.bounded.frames, h.bounded.requests, h.bounded.peers⟩
  have hbay := hk.toBay.bay (bayAgrees_empty rfl rfl rfl fun _ => rfl)
  exact ⟨⟨hq.1.trans h.settled.noWorks, hq.2.trans h.settled.noCheck⟩,
    ⟨hb.records, Nat.zero_le _, Nat.zero_le _, Nat.zero_le _⟩, hk.memory ▸ h.memory,
    fun row e ho => h.row row e (hk.port ▸ ho), ⟨hbay.range, hbay.occupied, hbay.quiet, hbay.idle⟩⟩

theorem inv_restart {cause : RestartCause} {low : Bool} {levels : Levels} (hm : Memory.wf s.memory = true)
    (hf : s.faults.records.length ≤ 8) : Inv (s.restart cause low levels) := by
  have hblank : Inv ((s.blank .unconfigured).recordFault .restart cause.code) :=
    (inv_blank (by decide) hm hf).recordFault _ _
  unfold State.restart
  simp only []
  split
  · exact hblank.inMaintenance
  · unfold State.intoShow
    split
    · exact hblank.recordFault _ _
    · exact hblank.startShow levels

/-- R168: the show memory keeps its form when an operation is cut short. -/
theorem Inv.cut_memory (h : Inv s) : Memory.wf s.cutOperation.memory = true := by
  unfold State.cutOperation
  split
  · exact h.memory
  · rename_i row e ho
    simp only []
    exact Memory.wf_programCut _ _ (h.row row e ho) h.memory
  · exact Memory.wf_eraseCut _ _ _ h.memory

theorem Inv.cut_records (h : Inv s) : s.cutOperation.faults.records.length ≤ 8 := by
  rw [(cutOperation_frame s).2]
  exact h.bounded.records

/-! ## Maintenance (R162 to R167) -/

/-- A command of the port: it is carried out on the state with an empty answer, or sets LATE alone. -/
theorem leadsToInv_portCommand {n : Nat} {effect : State → State} (h : Inv s)
    (he : ∀ u, Inv u → Inv (effect u)) : LeadsToInv (portCommand n effect s) := by
  unfold portCommand
  refine .ite (fun _ => .ite (fun _ => .next ?_) (.next (he _ ?_))) (.next h)
  · exact h.withPort h.memory h.row
  · exact h.withPort h.memory h.row

theorem Inv.refuse (h : Inv s) : Inv s.refuse := h.withPort h.memory h.row

theorem Inv.answer (h : Inv s) (bytes : List Byte) : Inv (s.answer bytes) := h.withPort h.memory h.row

theorem Inv.advancePointer (h : Inv s) : Inv s.advancePointer := h.withPort h.memory h.row

theorem Inv.loadByte (h : Inv s) (data : Byte) : Inv (s.loadByte data) := h.withPort h.memory h.row

theorem Inv.unlessProtected {effect : State → State} (h : Inv s) (he : Inv (effect s)) :
    Inv (s.unlessProtected effect) := by
  unfold State.unlessProtected
  split
  · exact h.refuse
  · exact he

theorem Inv.clearFaults (h : Inv s) : Inv (State.indicators { s with faults.records := [] }) where
  settled := ⟨h.settled.noWorks, h.settled.noCheck⟩
  bounded := ⟨Nat.zero_le _, h.bounded.frames, h.bounded.requests, h.bounded.peers⟩
  memory := h.memory
  row := h.row
  bay := ⟨h.bay.range, h.bay.occupied, h.bay.quiet, h.bay.idle⟩

/-- R159, R165: the row of the pointer lies in the show memory. -/
theorem row_in_memory (s : State) : s.row + 256 ≤ Memory.size := by
  have := s.port.pointer.isLt
  unfold State.row Memory.size
  omega

theorem Inv.begin (h : Inv s) (op : Operation) (ms : Nat)
    (hop : ∀ row, op = .commit row → row + 256 ≤ Memory.size) : Inv (s.begin op ms) :=
  h.withPort h.memory fun row e ho => hop row (by cases ho; rfl)

/-! ## The clock and the line -/

theorem beginAttempt_quietly (s : State) : Quietly s s.beginAttempt := by
  unfold State.beginAttempt
  split
  · exact ⟨rfl, rfl⟩
  · exact ⟨rfl, rfl⟩

theorem Inv.tickClock (h : Inv s) : Inv s.tickClock := by
  unfold State.tickClock
  split
  · exact h.congr ⟨rfl, rfl⟩ rfl rfl rfl rfl rfl
  · exact h.congr ⟨rfl, rfl⟩ rfl rfl rfl rfl rfl

theorem Inv.sendSample (h : Inv s) : Inv s.sendSample := by
  obtain ⟨x, n, hs⟩ := sendSample_frame s
  rw [hs]
  exact h.congr ⟨rfl, rfl⟩ rfl rfl rfl rfl rfl

/-- With no command waiting, time passes, or one of the station's own events is put in the queue. -/
theorem Inv.idle (h : Inv s) : Inv s.idle := by
  unfold State.idle
  split
  · unfold State.passTime
    split
    · exact h
    · exact h
    · exact h.tickClock.sendSample
  · exact h.congr ⟨rfl, rfl⟩ rfl rfl rfl rfl rfl
  · exact h.congr ⟨rfl, rfl⟩ rfl rfl rfl rfl rfl

/-! ## Every command -/

theorem leadsToInv_exec (h : Inv s) (c : Instr) : LeadsToInv (exec c s) := by
  cases c with
  | powerOn low levels =>
    exact .next (inv_restart (s := { s.cutOperation with faults.records := [] }) h.cut_memory (Nat.zero_le _))
  | powerLoss => exact .next (inv_blank (by decide) h.cut_memory h.cut_records)
  | resetAssert =>
    exact .ite (fun _ => .next h) (.next (inv_blank (by decide) h.cut_memory h.cut_records))
  | resetRelease low levels => exact .ite (fun _ => .next h) (.next (inv_restart h.cut_memory h.cut_records))
  | supplyRiseWithResetLow =>
    exact .next (inv_blank (s := { s.cutOperation with faults.records := [] }) (by decide) h.cut_memory
      (Nat.zero_le _))
  | inputSample i code => exact .ite (fun _ => leadsToInv_event_bay h (keepsBay_sampleInput s i code)) (.next h)
  | latchExpiry i => exact .ite (fun _ => .next (h.keeps (keeps_clearLatch s i) ⟨rfl, rfl⟩)) (.next h)
  | quietTimerExpiry => exact .ite (fun _ => leadsToInv_event_bay h (keepsBay_bayEmpties s)) (.next h)
  | idleTimerExpiry =>
    refine .ite (fun hd => leadsToInv_event_bay h ?_) (.next h)
    obtain ⟨hs, hi⟩ := Bool.and_eq_true_iff.1 hd
    obtain ⟨e, he, -⟩ := (reached_iff_expired _ _).1 hi
    exact keepsBay_bayIdles s hs (by rw [he]; rfl)
  | cooldownEnd n => exact leadsToInv_due h (keeps_endCooldown s n)
  | stepDeadline k => exact leadsToInv_due h (keeps_runSlot s k)
  | awaitTimeout k => exact leadsToInv_due h (keeps_completeAwait s k true)
  | fadeStep c => exact leadsToInv_due h (keeps_takeFadeStep s c)
  | announcementDue => exact leadsToInv_due h (keeps_handOverLoad s)
  | admissionTimeout d =>
    refine .ite (fun _ => ?_) (.next h)
    split
    · exact leadsToInv_event h (keeps_failAdmission s _)
    · exact .next h
  | voiceEntryExpiry n =>
    exact leadsToInv_due h ((keeps_setVoice s n .quiet).trans (keeps_checkStart _))
  | patienceExpiry k clip =>
    refine .ite (fun _ => ?_) (.next h)
    split
    · exact leadsToInv_event h (keeps_patience s k clip _)
    · exact .next h
  | windowEnd => exact leadsToInv_due h (keeps_endWindow s)
  | clipEnd => exact leadsToInv_due h (keeps_endClip s)
  | fadeOutEnd => exact leadsToInv_due h (keeps_endFadeOut s)
  | encoderCount d a b => exact leadsToInv_due h (keeps_readEncoder s d a b)
  | stillTimerExpiry d => exact leadsToInv_due h (keeps_driveArrives s d)
  | stallTimerExpiry d => exact leadsToInv_due h (keeps_driveFault s d .stall)
  | currentSample d code => exact leadsToInv_due h (keeps_takeSample s d code.toNat)
  | switchClose d which => exact leadsToInv_due h (keeps_closeSwitch s d which)
  | switchOpen d which => exact .ite (fun _ => .next (h.keeps (keeps_setDrive s d _) ⟨rfl, rfl⟩)) (.next h)
  | haltBrakeEnd d => exact .ite (fun _ => .next (h.keeps (keeps_setDrive s d _) ⟨rfl, rfl⟩)) (.next h)
  | retryTimerExpiry => exact leadsToInv_due h (keeps_retryAsk s)
  | giveUpTimerExpiry => exact leadsToInv_due h (keeps_giveUpAsk s)
  | grantTimerExpiry => exact leadsToInv_due h (keeps_trackLost s)
  | settleEnd => exact leadsToInv_due h (keeps_receiveComplete s)
  | haltReceived f => exact leadsToInv_event h (keeps_receive s _ f _ keeps_haltFrame)
  | resumeReceived f => exact leadsToInv_event h (keeps_receive s _ f _ keeps_resumeFrame)
  | talkIntentReceived f => exact leadsToInv_event h (keeps_receive s _ f _ fun t => keeps_hearIntent t _ _ _)
  | talkBusyReceived f => exact leadsToInv_event h (keeps_receive s _ f _ fun t => keeps_hearBusy t _ _ _)
  | talkEndReceived f => exact leadsToInv_event h (keeps_receive s _ f _ fun t => keeps_hearEnd t _)
  | blockAskReceived f => exact leadsToInv_event h (keeps_receive s _ f _ fun t => keeps_hearAsk t _ _ _)
  | blockGrantReceived f => exact leadsToInv_event h (keeps_receive s _ f _ fun t => keeps_hearGrant t _ _)
  | blockHeldReceived f => exact leadsToInv_event h (keeps_receive s _ f _ fun t => keeps_hearHeld t _ _)
  | blockReleaseReceived f => exact leadsToInv_event h (keeps_receive s _ f _ fun t => keeps_hearRelease t _ _ _)
  | cueReceived f => exact leadsToInv_event h (keeps_receive s _ f _ fun t => keeps_hearCue t _ _ _)
  | loadReceived f => exact leadsToInv_event h (keeps_receive s _ f _ fun t => keeps_hearLoad t _ _ _ _)
  | peerAgeOut n => exact leadsToInv_due h (keeps_removePeer s n)
  | transmissionAttempt =>
    exact .ite (fun _ => .next (h.keeps (keeps_beginAttempt s) (beginAttempt_quietly s))) (.next h)
  | arbitrationLost => exact leadsToInv_due h (keeps_loseAttempt s)
  | readbackAbort => exact leadsToInv_due h (keeps_abortAttempt s)
  | transmissionSuccess =>
    refine .ite (fun _ => ?_) (.next h)
    split
    · exact leadsToInv_event h (keeps_succeedAttempt s _)
    · exact .next h
  | muteTimerExpiry => exact leadsToInv_due h (keeps_endMute s)
  | joiningTimerExpiry => exact leadsToInv_due h (keeps_endJoining s)
  | lineStuck =>
    refine .ite (fun _ => .next (Inv.recordFault (s := { s with line.stuckHold := true }) ?_ _ _)) (.next h)
    exact h.congr ⟨rfl, rfl⟩ rfl rfl rfl rfl rfl
  | stuckHoldClear => exact .ite (fun _ => .next (h.congr ⟨rfl, rfl⟩ rfl rfl rfl rfl rfl)) (.next h)
  | transactionDiscard bytes => exact .next h
  | unknownCommand code => exact leadsToInv_portCommand h fun _ hu => hu.refuse
  | eraseAllScopeRefused scope => exact leadsToInv_portCommand h fun _ hu => hu.refuse
  | identify => exact leadsToInv_portCommand h fun _ hu => hu.answer _
  | status => exact .ite (fun _ => .next (h.withPort h.memory h.row)) (.next h)
  | setAddress a =>
    refine leadsToInv_portCommand (effect := fun t => { t with port.pointer := a.extractLsb' 0 23 }) h fun _ hu => ?_
    exact hu.withPort hu.memory hu.row
  | read => exact leadsToInv_portCommand h fun _ hu => hu.answer _
  | readNext => exact leadsToInv_portCommand h fun _ hu => (hu.answer _).advancePointer
  | load b => exact leadsToInv_portCommand h fun _ hu => hu.loadByte b
  | loadNext b => exact leadsToInv_portCommand h fun _ hu => (hu.loadByte b).advancePointer
  | commit =>
    refine leadsToInv_portCommand h fun u hu => hu.unlessProtected (hu.begin _ _ fun row hr => ?_)
    cases hr
    exact row_in_memory u
  | eraseSector =>
    exact leadsToInv_portCommand h fun _ hu => hu.unlessProtected (hu.begin _ _ fun _ hr => by cases hr)
  | eraseAllContent =>
    exact leadsToInv_portCommand h fun _ hu => hu.unlessProtected (hu.begin _ _ fun _ hr => by cases hr)
  | eraseAllEverything => exact leadsToInv_portCommand h fun _ hu => hu.begin _ _ fun _ hr => by cases hr
  | commitComplete =>
    refine .ite (fun _ => ?_) (.next h)
    split
    · rename_i row ho
      obtain ⟨e, ho, -⟩ := (operationDue_iff s _).1 ho
      exact .next (h.withPort (Memory.wf_program _ (h.row row e ho) h.memory) fun _ _ hx => by cases hx)
    · exact .next h
  | eraseComplete =>
    refine .ite (fun _ => ?_) (.next h)
    split
    · exact .next h
    · exact .next h
    · exact .next (h.withPort (Memory.wf_erase _ _ h.memory) fun _ _ hx => by cases hx)
  | faults => exact leadsToInv_portCommand h fun _ hu => hu.answer _
  | clearFaults => exact leadsToInv_portCommand h fun _ hu => hu.clearFaults
  | exit levels => exact leadsToInv_portCommand h fun _ hu => inv_restart hu.memory hu.bounded.records

/-- Settles O59: a step carries a command out, or idles. -/
theorem everyStepKeepsInvariant : Obligations.EveryStepKeepsInvariant := by
  intro s t h ht
  unfold step at ht
  split at ht
  · cases ht
    exact h.idle
  · rename_i c rest hp
    exact leadsToInv_exec (s := { s with pending := rest }) (h.congr ⟨rfl, rfl⟩ rfl rfl rfl rfl rfl) c t ht

/-- Settles O60: the station right after reset is at rest, with two fault records and its show memory erased. -/
theorem resetMeetsInvariants : Obligations.ResetMeetsInvariants := by
  refine ⟨⟨⟨rfl, rfl⟩, ⟨by decide, Nat.zero_le _, Nat.zero_le _, Nat.zero_le _⟩, rfl, ?_, ?_⟩, ⟨?_, ?_, ?_⟩, ?_⟩
  · exact fun _ _ h => by cases h
  · exact bayAgrees_empty rfl rfl rfl fun h => by cases h
  · exact fun h => by cases h
  · exact fun e he => absurd he List.not_mem_nil
  · exact fun e he => absurd he List.not_mem_nil
  · have hrunning : ¬State.reset.halted = true := by decide
    exact ⟨fun h => absurd h hrunning, fun h => absurd h hrunning, fun h => absurd h hrunning,
      fun h => absurd h hrunning⟩

end Sys2Proof.Machine
end

section
/-! Samples of the visitor inputs (R26 to R28, R30), and the expiries of the Input Unit's timers (R31, R36, R37, R51,
R52). -/

namespace Sys2Proof.Machine

variable {s t u : State}

/-! ## The comparator and the debounced state -/

theorem release_eq (c : InputSettings) :
    c.release = if c.threshold + c.hysteresis ≥ 1000 then 999 else c.threshold + c.hysteresis := by
  unfold InputSettings.release
  by_cases h : c.threshold + c.hysteresis < 1000
  · rw [if_pos h, if_neg (by omega)]
  · rw [if_neg h, if_pos (by omega)]

theorem debounceLength_eq (k : InputKind) : k.debounceLength = if k = .button then 2 else 1 := by
  cases k <;> rfl

section
variable {r : Input} {c : InputSettings} {level : Nat} {comparator : Bool}

theorem sample_agrees (hc : c.compare r.comparator level = comparator) (h : comparator = r.debounced) :
    r.sample c level = { r with comparator := comparator, debounceCount := 0 } := by
  unfold Input.sample
  rw [hc]
  exact if_pos h

theorem sample_counts (hc : c.compare r.comparator level = comparator) (h : comparator ≠ r.debounced)
    (hn : r.debounceCount + 1 < c.kind.debounceLength) :
    r.sample c level = { r with comparator := comparator, debounceCount := r.debounceCount + 1 } := by
  unfold Input.sample
  rw [hc]
  exact (if_neg h).trans (if_pos hn)

theorem sample_changes (hc : c.compare r.comparator level = comparator) (h : comparator ≠ r.debounced)
    (hn : c.kind.debounceLength ≤ r.debounceCount + 1) :
    r.sample c level = { r with comparator := comparator, debounced := comparator, debounceCount := 0 } := by
  unfold Input.sample
  rw [hc]
  exact (if_neg h).trans (if_neg (Nat.not_lt.2 hn))

end

/-! ## Samples that are no activation -/

theorem exec_inputSample_used {i : Fin 8} (code : BitVec 10) (h : Ready s) (hk : s.settings.inputs[i].kind ≠ .unused) :
    exec (.inputSample i code) s = event (fun t => t.sampleInput i code) s := by
  refine if_pos ?_
  rw [inShow_of_ready h]
  simpa using hk

theorem sampleInput_steady {i : Fin 8} {code : BitVec 10}
    (h : (s.inputs.inputs[i].sample s.settings.inputs[i] (levelOf code)).debounced = s.inputs.inputs[i].debounced) :
    s.sampleInput i code = sampled s i code := if_pos h

theorem sampleInput_releases {i : Fin 8} {code : BitVec 10} (h : Releases s i code) :
    s.sampleInput i code = (sampled s i code).release i := by
  have hb := h.before
  have ha := h.after
  unfold State.sampleInput
  simp only [hb, ha, Bool.false_eq_true, if_false]
  rfl

theorem settled_sampled {i : Fin 8} {code : BitVec 10} (h : Ready s) : Settled (sampled s i code) :=
  ⟨h.settled.noWorks, h.settled.noCheck⟩

theorem release_idle {i : Fin 8} (ha : s.settings.inputs[i].kind ≠ .arrive) (hd : s.settings.inputs[i].kind ≠ .depart) :
    s.release i = s := by
  unfold State.release
  split
  · rename_i h
    exact absurd h ha
  · rename_i h
    exact absurd h hd
  · rfl

/-- Settles O16: the comparator agrees with the debounced state, disagrees for too few samples, or changes it. -/
theorem sampleMovesComparatorAndDebounce : Obligations.SampleMovesComparatorAndDebounce := by
  intro s i code hr hk c r level above comparator needed
  have hc : c.compare r.comparator (levelOf code) = comparator := by
    unfold InputSettings.compare
    rw [release_eq]
    rfl
  have hn : needed = c.kind.debounceLength := (debounceLength_eq c.kind).symm
  have steady {q : Input} (hq : r.sample c (levelOf code) = q) (hd : q.debounced = r.debounced) :
      exec (.inputSample i code) s = .next (s.setInput i q) := by
    subst hq
    rw [exec_inputSample_used code hr hk]
    exact event_quiet (sampleInput_steady hd) (settled_sampled hr)
  refine ⟨fun h => steady (sample_agrees hc h) rfl, fun h hlt => steady (sample_counts hc h (hn ▸ hlt)) rfl,
    fun hf hd hle ha hdep => ?_⟩
  have hq := sample_changes hc (by rw [hf, hd]; decide) (hn ▸ hle)
  rw [hf] at hq
  have hrel : Releases s i code := ⟨hk, hd, congrArg Input.debounced hq⟩
  rw [exec_inputSample_used code hr hk, ← hq]
  exact event_quiet ((sampleInput_releases hrel).trans (release_idle ha hdep)) (settled_sampled hr)

/-! ## Latches, the quiet time and the idle time -/

theorem exec_latchExpiry {i : Fin 8} {a : Tick} (hr : Ready s) (hl : s.inputs.inputs[i].latch = some a)
    (ha : a + s.settings.inputs[i].hold ≤ s.now) : exec (.latchExpiry i) s = .next (s.clearLatch i) := by
  refine if_pos ?_
  unfold State.latchDue
  rw [inShow_of_ready hr, hl]
  simpa using ha

theorem exec_quietTimerExpiry {e : Tick} (hr : Ready s) (hq : s.inputs.quietTimer = some e) (he : e ≤ s.now) :
    exec .quietTimerExpiry s = event State.bayEmpties s := by
  refine if_pos ?_
  unfold State.quietDue reached
  rw [inShow_of_ready hr, hq]
  simpa using he

theorem exec_idleTimerExpiry {e : Tick} (hr : Ready s) (hi : s.inputs.idleTimer = some e) (he : e ≤ s.now) :
    exec .idleTimerExpiry s = event State.bayIdles s := by
  refine if_pos ?_
  unfold State.idleDue reached
  rw [inShow_of_ready hr, hi]
  simpa using he

/-! ## Idle dimming (R51, R52) -/

/-- R43: a fade of some length starts on a used channel, when a recomputation starts no request. -/
theorem startFade_frame {c : Fin 12} {target steps : Nat} {requester : Option Requester} (hn : NothingWaits s)
    (hs : steps ≠ 0) :
    ∃ lamps share check, s.startFade c target steps requester =
        { s with lamps := lamps, share := share, announceCheck := check } ∧
      lamps[c] =
        { (if s.used c = true then s.lamps[c].startFade target steps requester s.now else s.lamps[c]) with
          output := lamps[c].output } ∧
      (∀ j : Fin 12, j ≠ c → lamps[j] = { s.lamps[j] with output := lamps[j].output }) ∧
      share.admissions = s.share.admissions := by
  unfold State.startFade
  by_cases hu : s.used c = true
  · rw [if_pos hu, if_pos hu]
    simp only []
    rw [if_neg hs]
    obtain ⟨lamps, share, check, hl, ho, -, ha⟩ := lampChanged_frame
      (s := s.setLamp c (s.lamps[c].startFade target steps requester s.now)) hn
    refine ⟨lamps, share, check, hl, ?_, fun j hj => ?_, ha⟩
    · have := ho c
      rwa [setLamp_same] at this
    · have := ho j
      rwa [setLamp_other _ hj] at this
  · rw [if_neg hu, if_neg hu]
    exact ⟨s.lamps, s.share, s.announceCheck, rfl, rfl, fun _ _ => rfl, rfl⟩

/-- What a channel's lamp record becomes when the bay becomes IDLE, but for its output level. -/
def idleFaded (s : State) (c : Fin 12) (l : Lamp) : Lamp :=
  if s.used c = true ∧ s.engine.channelOwners[c] = none then
    l.startFade s.settings.channels[c].idleLevel 300 none s.now
  else l

theorem idleFaded_output (s : State) (c : Fin 12) (l : Lamp) (x y : Nat) :
    ({ idleFaded s c { l with output := x } with output := y } : Lamp) = { idleFaded s c l with output := y } := by
  unfold idleFaded
  by_cases h : s.used c = true ∧ s.engine.channelOwners[c] = none
  · rw [if_pos h, if_pos h]
    rfl
  · rw [if_neg h, if_neg h]

theorem idleFaded_eq (s : State) (c : Fin 12) (l : Lamp) (x : Nat) :
    ({ idleFaded s c l with output := x } : Lamp) =
      if s.settings.channels[c].rating ≠ 0 ∧ s.engine.channelOwners[c] = none then
        { l with
          fadeStart := l.programmed, target := s.settings.channels[c].idleLevel, steps := 300, stepsDone := 0
          fading := true, requester := none, begun := s.now, output := x }
      else { l with output := x } := by
  have hused : s.used c = true ↔ s.settings.channels[c].rating ≠ 0 := bne_iff_ne
  unfold idleFaded
  by_cases h : s.settings.channels[c].rating ≠ 0 ∧ s.engine.channelOwners[c] = none
  · rw [if_pos h, if_pos ⟨hused.2 h.1, h.2⟩]
    rfl
  · rw [if_neg h, if_neg fun hx => h ⟨hused.1 hx.1, hx.2⟩]

/-- R51 for one channel. -/
def State.dimForIdle (s : State) (c : Fin 12) : State :=
  if s.engine.channelOwners[c].isNone then s.startFade c s.settings.channels[c].idleLevel 300 none else s

theorem idleDimming_running (h : s.halt = none) : s.idleDimming = (List.finRange 12).foldl State.dimForIdle s := by
  unfold State.idleDimming State.halted
  rw [h]
  rfl

theorem dimForIdle_frame (c : Fin 12) (hn : NothingWaits s) :
    ∃ lamps share check, s.dimForIdle c = { s with lamps := lamps, share := share, announceCheck := check } ∧
      lamps[c] = { idleFaded s c s.lamps[c] with output := lamps[c].output } ∧
      (∀ j : Fin 12, j ≠ c → lamps[j] = { s.lamps[j] with output := lamps[j].output }) ∧
      share.admissions = s.share.admissions := by
  unfold State.dimForIdle idleFaded
  cases hc : s.engine.channelOwners[c] with
  | none =>
    simp only [Option.isNone_none, if_true, and_true]
    exact startFade_frame hn (by decide)
  | some o =>
    simp only [Option.isNone_some, Bool.false_eq_true, if_false, reduceCtorEq, and_false]
    exact ⟨s.lamps, s.share, s.announceCheck, rfl, rfl, fun _ _ => rfl, rfl⟩

theorem dimsForIdle_frame : ∀ (l : List (Fin 12)) (s : State), l.Nodup → NothingWaits s →
    ∃ lamps share check, l.foldl State.dimForIdle s =
        { s with lamps := lamps, share := share, announceCheck := check } ∧
      (∀ c ∈ l, lamps[c] = { idleFaded s c s.lamps[c] with output := lamps[c].output }) ∧
      ∀ c : Fin 12, c ∉ l → lamps[c] = { s.lamps[c] with output := lamps[c].output }
  | [], s, _, _ => ⟨s.lamps, s.share, s.announceCheck, rfl, fun _ h => absurd h List.not_mem_nil, fun _ _ => rfl⟩
  | c :: l, s, hl, hn => by
    obtain ⟨hc, hl⟩ := List.nodup_cons.1 hl
    obtain ⟨lamps, share, check, hdim, hsame, hother, hadm⟩ := dimForIdle_frame c hn
    obtain ⟨lamps', share', check', hdims, hdone, hleft⟩ :=
      dimsForIdle_frame l { s with lamps := lamps, share := share, announceCheck := check } hl
        (hn.imp_right hadm.trans)
    rw [List.foldl_cons, hdim, hdims]
    refine ⟨lamps', share', check', rfl, fun j hj => ?_, fun j hj => ?_⟩
    · by_cases hjl : j ∈ l
      · refine (hdone j hjl).trans ?_
        show ({ idleFaded s j lamps[j] with output := _ } : Lamp) = _
        rw [hother j fun hx => hc (hx ▸ hjl)]
        exact idleFaded_output s j _ _ _
      · obtain rfl : j = c := (List.mem_cons.1 hj).resolve_right hjl
        refine (hleft j hjl).trans ?_
        show ({ lamps[j] with output := _ } : Lamp) = _
        rw [hsame]
    · refine (hleft j fun h => hj (List.mem_cons_of_mem _ h)).trans ?_
      show ({ lamps[j] with output := _ } : Lamp) = _
      rw [hother j fun hx => hj (hx ▸ List.mem_cons_self)]

/-- The bay once it has become IDLE (R37), before any lamp is dimmed for it. -/
def idledBay (s : State) : State := { s with inputs.bay := .idle, inputs.idleTimer := none }

/-- Settles O19: each expiry as an event of its own, and the idle fades channel by channel. -/
theorem inputTimersExpire : Obligations.InputTimersExpire := by
  intro s i e hr he
  refine ⟨fun a hl hea => exec_latchExpiry hr hl (hea ▸ he), fun hq hc => ?_, fun hi hh => ?_, fun hi hh hadm => ?_⟩
  · rw [exec_quietTimerExpiry hr hq he]
    exact event_trigger_unbound (u := emptiedBay s) rfl ⟨hr.settled.noWorks, hr.settled.noCheck⟩ hc
  · rw [exec_idleTimerExpiry hr hi he]
    exact event_quiet (u := idledBay s) (if_pos hh) ⟨hr.settled.noWorks, hr.settled.noCheck⟩
  · rw [exec_idleTimerExpiry hr hi he]
    obtain ⟨lamps, share, check, hdims, hlamps, -⟩ :=
      dimsForIdle_frame (List.finRange 12) (idledBay s) (List.nodup_finRange 12) (.inr hadm)
    have hbody : s.bayIdles = { idledBay s with lamps := lamps, share := share, announceCheck := check } :=
      (idleDimming_running (s := idledBay s) hh).trans hdims
    refine ⟨_, event_ends hbody (settle_done 0 hr.settled.noWorks) (by decide), announce_inputs _, announce_engine _,
      announce_drives _, announce_track _, announce_player _, (announce_halt _).trans hh, fun c => ?_⟩
    rw [announce_lamps]
    exact (hlamps c (List.mem_finRange c)).trans (idleFaded_eq (idledBay s) c _ _)

end Sys2Proof.Machine
end

section
/-! The beams of the track (R30, R33, R125, R127, R129, R130). -/

namespace Sys2Proof.Machine

variable {s t u v : State}

/-! ## The end of a handover -/

/-- R18, R125, R127: an event that ends the handover, with no scene awaiting the track and no other request waiting. -/
theorem event_endsHandover {body : State → State} {state : TrackState} {out : AwaitOutcome}
    (hb : body s = (v.endHandover state).trackOutcome out) (hw : v.works = []) (ha : NobodyAwaits v .track)
    (hn : NothingElseWaits v 3) :
    ∃ t, event body s = .next t ∧ t.track = endedTrack v.track state ∧ t.share.motorDemand = t.motorDemand ∧
      t.engine.trackRequester = none ∧ t.player = v.player ∧
      ∀ x ∈ v.line.queue, x.isLoad = false → x ∈ t.line.queue := by
  obtain ⟨drives, lamps, share, hend, hm, -⟩ := endHandover_frame state hn
  have hu : (v.endHandover state).trackOutcome out = forgetRequester (v.endHandover state) := by
    rw [trackOutcome_eq]
    refine completeAwaits_none out fun k => ?_
    rw [hend]
    exact ha k
  refine ⟨_, event_ends (hb.trans hu) (settle_done 0 ?_) (by decide), ?_, ?_, ?_, ?_, fun x hx hl => ?_⟩
  · rw [hend]
    exact hw
  · rw [announce_track, hend]
    rfl
  · rw [announce_share_motorDemand, announce_motorDemand, forgetRequester_motorDemand]
    exact (show (v.endHandover state).share.motorDemand = share.motorDemand by rw [hend]).trans hm
  · rw [announce_engine]
    rfl
  · rw [announce_player, hend]
    rfl
  · refine mem_announce_queue ?_ hl
    rw [hend]
    exact hx

/-! ## Beams -/

/-- An input is one of the track's two beams (R33). -/
def IsBeam (side : InputKind) : Prop := side = .arrive ∨ side = .depart

theorem IsBeam.ne_unused {side : InputKind} (h : IsBeam side) : side ≠ .unused := by
  rcases h with rfl | rfl <;> decide

theorem activation_beam {i : Fin 8} {side : InputKind} (code : BitVec 10) (h : IsBeam side)
    (hk : s.settings.inputs[i].kind = side) :
    (sampled s i code).activation i =
      if s.settings.trackMode then (activated s i code).trackBeamBroken side else activated s i code := by
  unfold State.activation
  rw [activation_noted]
  have hs : (activated s i code).settings.inputs[i].kind = s.settings.inputs[i].kind := rfl
  rcases h with rfl | rfl <;> simp only [hs, hk] <;> rfl

theorem release_beam {i : Fin 8} {side : InputKind} (h : IsBeam side) (hk : s.settings.inputs[i].kind = side) :
    s.release i = if s.settings.trackMode then s.trackBeamClear side else s := by
  unfold State.release
  rcases h with rfl | rfl <;> simp only [hk]

/-- R33: in every state but SENDING, RECEIVING and EMPTY, and SENDING with the ARRIVE beam, a broken beam has no
effect. -/
theorem trackBeamBroken_none {side : InputKind}
    (hs : (s.track.state = .sending ∧ side = .arrive) ∨
      (s.track.state ≠ .sending ∧ s.track.state ≠ .receiving ∧ s.track.state ≠ .empty)) :
    s.trackBeamBroken side = s := by
  unfold State.trackBeamBroken
  split
  · rename_i hst
    exact (hs.elim (fun h => InputKind.noConfusion h.2) fun h => h.1 hst).elim
  · rename_i hst
    exact (hs.elim (fun h => TrackState.noConfusion (hst.symm.trans h.1)) fun h => h.2.1 hst).elim
  · rename_i hst
    exact (hs.elim (fun h => TrackState.noConfusion (hst.symm.trans h.1)) fun h => h.2.1 hst).elim
  · rename_i hst
    exact (hs.elim (fun h => TrackState.noConfusion (hst.symm.trans h.1)) fun h => h.2.2 hst).elim
  · rfl

theorem trackBeamBroken_empty (side : InputKind) (hs : s.track.state = .empty) :
    s.trackBeamBroken side = { s with track.state := .holding } := by
  unfold State.trackBeamBroken
  rw [hs]

theorem trackBeamBroken_left (hs : s.track.state = .sending) :
    s.trackBeamBroken .depart = { s with track.departSeen := true } := by
  unfold State.trackBeamBroken
  rw [hs]

theorem trackBeamBroken_arriving (hs : s.track.state = .receiving) :
    s.trackBeamBroken .arrive = { s with track.arriveSeen := true } := by
  unfold State.trackBeamBroken
  rw [hs]

theorem trackBeamBroken_receiving (hs : s.track.state = .receiving) :
    s.trackBeamBroken .depart = (s.endHandover .holding).trackOutcome .done := by
  unfold State.trackBeamBroken
  rw [hs]
  rfl

theorem trackBeamClear_left (hs : s.track.state = .sending) (hd : s.track.departSeen = true) :
    s.trackBeamClear .depart = s.sendComplete := by
  unfold State.trackBeamClear
  simp only [hs, hd, if_true]

theorem trackBeamClear_arrived (hs : s.track.state = .receiving) (ha : s.track.arriveSeen = true) :
    s.trackBeamClear .arrive = s.carriageArrived := by
  unfold State.trackBeamClear
  simp only [hs, ha, if_true]

theorem trackBeamClear_none {side : InputKind}
    (hl : ¬(s.track.state = .sending ∧ side = .depart ∧ s.track.departSeen = true))
    (ha : ¬(s.track.state = .receiving ∧ side = .arrive ∧ s.track.arriveSeen = true)) : s.trackBeamClear side = s := by
  unfold State.trackBeamClear
  split
  · rename_i hs
    exact if_neg fun hd => hl ⟨hs, rfl, hd⟩
  · rename_i hs
    exact if_neg fun hd => ha ⟨hs, rfl, hd⟩
  · rfl

theorem carriageArrived_settles (h : s.settings.settleRun ≠ 0) :
    s.carriageArrived =
      { s with
        track.grantTimer := .stopped
        track.settle :=
          if s.halt = none then .expiring (s.now + s.settings.settleRun) else .frozen s.settings.settleRun } := by
  unfold State.carriageArrived State.halted
  rw [if_neg h]
  cases s.halt <;> rfl

/-- Settles O7: a broken beam and a clear one, by the state of the block. -/
theorem beamsMoveTrackBlock : Obligations.BeamsMoveTrackBlock := by
  intro s i code side hr hside hk state ends
  have exec_eq : exec (.inputSample i code) s = event (fun t => t.sampleInput i code) s :=
    exec_inputSample_used code hr (by rw [hk]; exact IsBeam.ne_unused hside)
  have ended {v : State} {state' : TrackState} (hb : s.sampleInput i code = (v.endHandover state').trackOutcome .done)
      (hv : v.works = []) (htrack : v.track = s.track) (hplayer : v.player = s.player) (hno : NobodyAwaits v .track)
      (hn : NothingElseWaits v 3) :
      ∃ t, ends state' t ∧ ∀ x ∈ v.line.queue, x.isLoad = false → x ∈ t.line.queue := by
    obtain ⟨t, ht, htr, hdem, hreq, hp, hkeep⟩ :=
      event_endsHandover (body := fun t => t.sampleInput i code) hb hv hno hn
    exact ⟨t, ⟨exec_eq.trans ht, htrack ▸ htr, hdem, hreq, hp.trans hplayer⟩, hkeep⟩
  refine ⟨fun ha => ?_, fun hrel => ?_⟩
  · intro u
    have hu : Settled u := settled_activated hr
    have hbody : s.sampleInput i code = if s.settings.trackMode then u.trackBeamBroken side else u :=
      (sampleInput_activates ha).trans (activation_beam code hside hk)
    have quiet {v : State} (hb : s.sampleInput i code = v) (hv : Settled v) : exec (.inputSample i code) s = .next v :=
      exec_eq.trans (event_quiet hb hv)
    refine ⟨fun hm => quiet (hbody.trans (by rw [hm]; rfl)) hu, fun hm => ?_⟩
    rw [hm, if_pos rfl] at hbody
    refine ⟨fun hst hd => ?_, fun hst hd => ?_, fun hst hd hno hn => ?_, fun hst => ?_, fun h => ?_⟩
    · subst hd
      exact quiet (hbody.trans (trackBeamBroken_left hst)) ⟨hu.noWorks, hu.noCheck⟩
    · subst hd
      exact quiet (hbody.trans (trackBeamBroken_arriving hst)) ⟨hu.noWorks, hu.noCheck⟩
    · subst hd
      obtain ⟨t, ht, -⟩ := ended (hbody.trans (trackBeamBroken_receiving (s := u) hst)) hu.noWorks rfl rfl hno hn
      exact ⟨t, ht⟩
    · exact quiet (hbody.trans (trackBeamBroken_empty side hst)) ⟨hu.noWorks, hu.noCheck⟩
    · exact quiet (hbody.trans (trackBeamBroken_none h)) hu
  · intro u left arrived
    have hu : Settled u := settled_sampled hr
    have hbody : s.sampleInput i code = if s.settings.trackMode then u.trackBeamClear side else u :=
      (sampleInput_releases hrel).trans (release_beam hside hk)
    have arrives (h : arrived) : s.sampleInput i code = u.carriageArrived := by
      obtain ⟨hm, hst, rfl, hseen⟩ := h
      rw [hbody, hm, if_pos rfl]
      exact trackBeamClear_arrived (s := u) hst hseen
    refine ⟨fun ⟨hm, hst, hd, hseen⟩ hno hn hq => ?_, fun h hrun => ?_, fun h hrun hno hn => ?_, fun hl harr => ?_⟩
    · subst hd
      rw [hm, if_pos rfl, trackBeamClear_left (s := u) hst hseen] at hbody
      unfold State.sendComplete at hbody
      rw [toPeer_room (s := u) .done hq] at hbody
      obtain ⟨t, ht, hkeep⟩ := ended hbody hu.noWorks rfl rfl hno hn
      exact ⟨t, ht, _, hkeep _ (mem_insertTx _ _) rfl, rfl⟩
    · exact exec_eq.trans
        (event_quiet ((arrives h).trans (carriageArrived_settles (s := u) hrun)) ⟨hu.noWorks, hu.noCheck⟩)
    · obtain ⟨t, ht, -⟩ := ended ((arrives h).trans (if_pos hrun)) hu.noWorks rfl rfl hno hn
      exact ⟨t, ht⟩
    · refine exec_eq.trans (event_quiet (hbody.trans ?_) hu)
      split
      · rename_i hm
        exact trackBeamClear_none (fun h => hl ⟨hm, h⟩) fun h => harr ⟨hm, h⟩
      · rfl

end Sys2Proof.Machine
end

section
/-! STOP and RESUME activations (R30, R32, R131, R132, R150, R151). -/

namespace Sys2Proof.Machine

variable {s t u v : State} {r : HaltReason}

/-! ## The activations -/

theorem activation_stop {i : Fin 8} (code : BitVec 10) (hk : s.settings.inputs[i].kind = .stop) :
    (sampled s i code).activation i = (activated s i code).stopActivation := by
  unfold State.activation
  rw [activation_noted]
  have hs : (activated s i code).settings.inputs[i].kind = s.settings.inputs[i].kind := rfl
  simp only [hs, hk]

theorem activation_resume {i : Fin 8} (code : BitVec 10) (hk : s.settings.inputs[i].kind = .resume) :
    (sampled s i code).activation i = (activated s i code).resumeActivation := by
  unfold State.activation
  rw [activation_noted]
  have hs : (activated s i code).settings.inputs[i].kind = s.settings.inputs[i].kind := rfl
  simp only [hs, hk]

/-- An activation leaves the levels of the inputs of other kinds as they are (R32, R33). -/
theorem anyActive_activated {i : Fin 8} (code : BitVec 10) {k : InputKind} (hk : s.settings.inputs[i].kind ≠ k) :
    (activated s i code).anyActive k = s.anyActive k := by
  unfold State.anyActive
  refine congrArg (List.any _) (funext fun j => ?_)
  by_cases hj : j = i
  · subst hj
    have hs : (activated s j code).settings.inputs[j].kind = s.settings.inputs[j].kind := rfl
    rw [hs, beq_eq_false_iff_ne.2 hk, Bool.false_and, Bool.false_and]
  · have hi : (activated s i code).inputs.inputs[j] = s.inputs.inputs[j] :=
      Vector.getElem_set_ne i.isLt j.isLt fun h => hj (Fin.ext h.symm)
    rw [hi]
    rfl

theorem sendHalt_room (h : s.line.queue.length < 8) :
    s.sendHalt = s.setTxQueue (insertTx ⟨.halt .stopInput, s.now, false, 0⟩ s.line.queue) :=
  handOver_room (by decide) h

/-! ## STOP (R150) -/

/-- A halt that this station sends for, to the end of its event: the slots' retakes are refused. -/
theorem event_entered {body : State → State} (h : EnteredHalt s r t) (hw : s.works = []) (hb : body v = u)
    (hu : ∃ queue faults, u = { t with line.queue := queue, faults := faults }) :
    ∃ inputs, event body v = .next (State.announce { u with inputs := inputs, works := [] }) := by
  obtain ⟨ns, hworks, hlen⟩ := h.works
  obtain ⟨queue, faults, hu⟩ := hu
  have huw : u.works = ns.map .retake := by
    rw [hu]
    show t.works = _
    rw [hworks, hw, List.nil_append]
  have hidle : ∀ w ∈ ns.map Work.retake, IdleWork w := fun w hm => by
    obtain ⟨n, -, rfl⟩ := List.mem_map.1 hm
    exact .inl ⟨n, rfl⟩
  obtain ⟨inputs, hsettle, -⟩ := settle_idleWorks (s := u) hidle (by rw [hu]; exact halted_of_halt h.halt)
  rw [withWorks_self huw] at hsettle
  refine ⟨inputs, event_ends hb hsettle ?_⟩
  rw [List.length_map]
  exact hlen.trans (by decide)

/-- R149, R150: a STOP activation while RUNNING. -/
theorem event_stops {body : State → State} (hb : body v = u.stopActivation) (hh : u.halt = none) (hw : u.works = [])
    (hq : u.line.queue.length < 8) (hsafe : u.track.running = true → u.inHandover = true) :
    ∃ t, event body v = .next t ∧ t.halt = some .stopInput ∧ HaltSafe t ∧
      (∃ x ∈ t.faults.records, x.kind = .halted ∧ x.detail = 0) ∧ (∃ x ∈ t.line.queue, x.body = .halt .stopInput) ∧
      t.memory = u.memory := by
  have hentered := enterHalt_entered (r := .stopInput) hsafe
  have hstop : u.stopActivation = ((u.enterHalt .stopInput).sendHalt).recordHalted .stopInput := by
    unfold State.stopActivation State.halted
    rw [hh]
    rfl
  rw [hstop] at hb
  generalize u.enterHalt .stopInput = w at hentered hb
  obtain ⟨queue, faults, hsend, hmem⟩ := sendHalt_entered hentered
  obtain ⟨inputs, hevent⟩ := event_entered hentered hw hb ⟨queue, _, by rw [hsend]; rfl⟩
  refine ⟨_, hevent, ?_, hentered.haltSafe ?_ ?_ ?_ ?_,
    NewestRecord.mem_announce (newest_recordFault _ _ _) (by decide), ?_, ?_⟩
  · rw [announce_halt, hsend]
    exact hentered.halt
  · rw [announce_engine, hsend]
    rfl
  · rw [announce_player, hsend]
    rfl
  · rw [announce_drives, hsend]
    rfl
  · rw [announce_track, hsend]
    rfl
  · obtain ⟨x, hx, hbody, hload⟩ := hmem hq
    refine ⟨x, mem_announce_queue ?_ hload, hbody⟩
    rw [hsend]
    exact hx
  · rw [announce_memory, hsend]
    exact hentered.memory

/-! ## RESUME (R131, R132, R151) -/

theorem clearTrack_none (h : s.track.state ≠ .faulted) : s.clearTrack = s := if_neg fun hf => h hf.1

theorem clearTrack_faulted (hh : s.halt = none) (h : s.track.state = .faulted) :
    s.clearTrack =
      { s with
        track.state := if s.beamBroken .arrive = true ∨ s.beamBroken .depart = true then .holding else .empty
        track.peer := none, track.arriveSeen := false, track.departSeen := false, track.grantTimer := .stopped
        track.retryTimer := none, track.giveUpTimer := none, track.settle := .stopped } := by
  have hh : s.halted = false := by unfold State.halted; rw [hh]; rfl
  refine (if_pos ⟨h, hh⟩).trans ?_
  simp only [Bool.or_eq_true]

theorem resumeActivation_running (hh : s.halt = none) : s.resumeActivation = s.clearTrack := by
  have hh : ¬s.halted = true := by unfold State.halted; rw [hh]; decide
  unfold State.resumeActivation State.resumeAtHalt
  rw [if_neg fun h => hh h.1, if_neg hh]

theorem resumeActivation_halted (hh : s.halt ≠ none) (h : s.track.state ≠ .faulted) :
    s.resumeActivation =
      State.clearTrack (if s.stopLevel then s.sendHalt else s.leaveHalt.handOver .resume) := by
  unfold State.resumeActivation State.resumeAtHalt
  rw [if_neg fun hx => h hx.2]
  exact congrArg State.clearTrack (if_pos (Option.isSome_iff_ne_none.2 hh))

/-- R131: with no handover under way, the return to RUNNING owes the announcement alone. -/
theorem leaveHalt_free (h : s.inHandover = false) : s.leaveHalt = { s with halt := none, announceCheck := true } := by
  have hr : State.resumeTrack { s with halt := none } = { s with halt := none } :=
    if_neg (by rw [show State.inHandover { s with halt := none } = s.inHandover from rfl, h]; decide)
  unfold State.leaveHalt
  rw [hr]

/-- Settles O12: STOP and RESUME, each by whether the station is HALTED. -/
theorem stopAndResumeInputsAct : Obligations.StopAndResumeInputsAct := by
  intro s i code hr ha u sent
  have hu : Settled u := settled_activated hr
  rw [exec_inputSample hr ha]
  refine ⟨fun hk hq => ?_, fun hk => ?_⟩
  · have hbody : s.sampleInput i code = u.stopActivation := (sampleInput_activates ha).trans (activation_stop code hk)
    refine ⟨fun hh => ?_, fun hh hsafe => ?_⟩
    · have hsend : u.stopActivation = u.sendHalt := if_pos (Option.isSome_iff_ne_none.2 hh)
      exact event_quiet (hbody.trans (hsend.trans (sendHalt_room hq))) ⟨hu.noWorks, hu.noCheck⟩
    · exact event_stops (body := fun t => t.sampleInput i code) (v := s) (u := u) hbody hh hu.noWorks hq hsafe.running
  · have hbody : s.sampleInput i code = u.resumeActivation :=
      (sampleInput_activates ha).trans (activation_resume code hk)
    have level {k : InputKind} (h : k ≠ .resume) : u.anyActive k = s.anyActive k :=
      anyActive_activated code (by rw [hk]; exact h.symm)
    have hstop : u.stopLevel = s.stopLevel := level (by decide)
    refine ⟨fun hh hf => ?_, fun hh hf => ?_, fun hh hf hq => ⟨fun hs => ?_, fun hs hno => ?_⟩⟩
    · exact event_quiet (hbody.trans ((resumeActivation_running (s := u) hh).trans (clearTrack_none hf))) hu
    · have hclear := (resumeActivation_running (s := u) hh).trans (clearTrack_faulted hh hf)
      rw [show u.beamBroken .arrive = s.beamBroken .arrive from level (by decide),
        show u.beamBroken .depart = s.beamBroken .depart from level (by decide)] at hclear
      exact event_quiet (hbody.trans hclear) ⟨hu.noWorks, hu.noCheck⟩
    · have hres := resumeActivation_halted (s := u) hh hf
      rw [hstop, hs, if_pos rfl, sendHalt_room (s := u) hq] at hres
      exact event_quiet (hbody.trans (hres.trans (clearTrack_none hf))) ⟨hu.noWorks, hu.noCheck⟩
    · have hres := resumeActivation_halted (s := u) hh hf
      rw [hstop, hs, if_neg Bool.false_ne_true, leaveHalt_free (s := u) hno,
        handOver_room (s := { u with halt := none, announceCheck := true }) (by decide) hq] at hres
      refine ⟨_, event_ends (hbody.trans (hres.trans (clearTrack_none hf))) (settle_done 0 hu.noWorks) (by decide),
        announce_halt _, ⟨_, mem_announce_queue (mem_insertTx _ _) rfl, rfl⟩, announce_track _, announce_engine _,
        announce_player _, announce_drives _, announce_lamps _⟩

end Sys2Proof.Machine
end

section
/-! The levels of a fade (R44), the output levels and the lamp draw (R48), the allowances of a group (R61, R62), and what a
recomputation that starts no request hands over (R60, R63). -/

namespace Sys2Proof.Machine

variable {s : State}

/-! ## Shares rounded down -/

theorem sum_scaled_le_scaled_sum {α : Type} (f : α → Nat) (whole given : Nat) (l : List α) :
    (l.map fun x => f x * given / whole).sum ≤ (l.map f).sum * given / whole := by
  induction l with
  | nil => simp
  | cons x xs ih =>
    simp only [List.map_cons, List.sum_cons, Nat.add_mul]
    exact (Nat.add_le_add_left ih _).trans Nat.div_add_div_le_add_div

/-- Parts of a whole, each scaled by `given / whole` and rounded down, come to no more than what is given. -/
theorem sum_scaled_le {α : Type} (f : α → Nat) {whole given : Nat} {l : List α} (h : (l.map f).sum ≤ whole) :
    (l.map fun x => f x * given / whole).sum ≤ given :=
  (sum_scaled_le_scaled_sum f whole given l).trans (Nat.div_le_of_le_mul (Nat.mul_le_mul_right given h))

/-! ## Fade levels (R44) -/

theorem fadeLevel_first (start target n : Nat) : fadeLevel start target 0 n = start := by
  unfold fadeLevel; simp

theorem fadeLevel_rising {start target : Nat} (k n : Nat) (h : start ≤ target) :
    fadeLevel start target k n = start + (target - start) * k / n := by
  unfold fadeLevel
  rw [← Int.ofNat_sub h, ← Int.natCast_mul, ← Int.ofNat_tdiv, ← Int.natCast_add, Int.toNat_natCast]

theorem fadeLevel_falling {start target : Nat} (k n : Nat) (h : target ≤ start) :
    fadeLevel start target k n = start - (start - target) * k / n := by
  unfold fadeLevel
  rw [← Int.neg_sub, ← Int.ofNat_sub h, Int.neg_mul, Int.neg_tdiv, ← Int.natCast_mul, ← Int.ofNat_tdiv,
    ← Int.sub_eq_add_neg, Int.toNat_sub]

theorem scaled_le (part : Nat) {k n : Nat} (h : k ≤ n) : part * k / n ≤ part :=
  Nat.div_le_of_le_mul (Nat.mul_comm n part ▸ Nat.mul_le_mul_left part h)

/-- R44: a rising fade has added a part of the way, and a falling one has taken a part of it off. -/
theorem fadeLevel_between (start target : Nat) {k n : Nat} (h : k ≤ n) :
    min start target ≤ fadeLevel start target k n ∧ fadeLevel start target k n ≤ max start target := by
  rcases Nat.le_total start target with hle | hle
  · rw [fadeLevel_rising k n hle, Nat.min_eq_left hle, Nat.max_eq_right hle]
    exact ⟨Nat.le_add_right _ _,
      (Nat.add_le_add_left (scaled_le _ h) start).trans_eq (Nat.add_sub_cancel' hle)⟩
  · rw [fadeLevel_falling k n hle, Nat.min_eq_right hle, Nat.max_eq_left hle]
    exact ⟨(Nat.sub_sub_self hle).symm.trans_le (Nat.sub_le_sub_left (scaled_le _ h) start), Nat.sub_le _ _⟩

theorem fadeLevel_mono {start target j k : Nat} (n : Nat) (h : start ≤ target) (hj : j ≤ k) :
    fadeLevel start target j n ≤ fadeLevel start target k n := by
  rw [fadeLevel_rising j n h, fadeLevel_rising k n h]
  exact Nat.add_le_add_left (Nat.div_le_div_right (Nat.mul_le_mul_left _ hj)) start

/-- Settles O29: the levels of a fade by its step, on the way up and on the way down. -/
theorem fadeLevelStaysBetween : Obligations.FadeLevelStaysBetween := by
  intro start target n k hn hk
  obtain ⟨hlow, hhigh⟩ := fadeLevel_between start target hk
  exact ⟨hlow, hhigh, fadeLevel_first start target n, fadeLevel_last hn, fun h j hj => fadeLevel_mono n h hj⟩

/-! ## Output levels and the lamp draw (R46, R48) -/

theorem outputLevel_le (programmed : Nat) (demand given : MilliWatt) :
    outputLevel programmed demand given ≤ programmed := by
  unfold outputLevel
  split
  · exact Nat.le_refl _
  · rename_i h
    exact scaled_le programmed (Nat.le_of_not_le h)

/-- R48, R49: the records of the channels once their outputs are worked out again. -/
theorem refreshOutputs_lamp (s : State) (c : Fin 12) :
    s.refreshOutputs.lamps[c] =
      { s.lamps[c] with
        output :=
          if s.settings.channels[c].rating = 0 then 0
          else outputLevel s.lamps[c].programmed s.share.lampDemand s.share.lampAllowance } := by
  unfold State.refreshOutputs State.used
  simp

theorem refreshOutputs_output (s : State) (c : Fin 12) :
    s.refreshOutputs.lamps[c].output =
      if s.settings.channels[c].rating = 0 then 0
      else outputLevel s.lamps[c].programmed s.share.lampDemand s.share.lampAllowance := by
  rw [refreshOutputs_lamp]

theorem refreshOutputs_output_le (s : State) (c : Fin 12) :
    s.refreshOutputs.lamps[c].output ≤ s.lamps[c].programmed := by
  rw [refreshOutputs_output]
  split
  · exact Nat.zero_le _
  · exact outputLevel_le _ _ _

/-- R48: with less than the lamp demand allowed, a channel draws at most its share of the lamp allowance. -/
theorem channelDraw_le (c : Fin 12) (h : ¬ s.share.lampDemand ≤ s.share.lampAllowance) :
    s.settings.channels[c].rating * s.refreshOutputs.lamps[c].output ≤
      s.settings.channels[c].rating * s.lamps[c].programmed * s.share.lampAllowance / s.share.lampDemand := by
  rw [refreshOutputs_output]
  split
  · exact Nat.zero_le _
  · rw [outputLevel, if_neg h, Nat.mul_assoc]
    exact Nat.mul_div_le_mul_div_assoc _ _ _

/-- What the channels would draw at their programmed levels. -/
def programmedDraw (s : State) : MilliWatt :=
  ((List.finRange 12).map fun c => s.settings.channels[c].rating * s.lamps[c].programmed).sum

/-- R46: at levels within the channels' peaks that is no more than the lamp demand. -/
theorem programmedDraw_le (h : ∀ c : Fin 12, s.lamps[c].programmed ≤ s.lamps[c].peak) :
    programmedDraw s ≤ s.lampDemand :=
  List.sum_le_sum fun c _ => Nat.mul_le_mul_left _ (h c)

/-- R48: the lamp draw, when the demand handed over covers the programmed levels. -/
theorem lampDraw_le (h : programmedDraw s ≤ s.share.lampDemand) :
    ((List.finRange 12).map fun c => s.settings.channels[c].rating * s.refreshOutputs.lamps[c].output).sum ≤
      s.share.lampAllowance := by
  by_cases hd : s.share.lampDemand ≤ s.share.lampAllowance
  · calc
      _ ≤ programmedDraw s := List.sum_le_sum fun c _ => Nat.mul_le_mul_left _ (refreshOutputs_output_le s c)
      _ ≤ s.share.lampAllowance := h.trans hd
  · exact (List.sum_le_sum fun c _ => channelDraw_le c hd).trans (sum_scaled_le _ h)

/-- Settles O30: each channel by its own record, and the draw by the sum of the channels' shares. -/
theorem lampDrawWithinAllowance : Obligations.LampDrawWithinAllowance := by
  intro s t
  exact ⟨fun c => ⟨refreshOutputs_output s c, refreshOutputs_output_le s c⟩,
    fun hpeak hdem => lampDraw_le (hdem ▸ programmedDraw_le hpeak)⟩

/-! ## The group's allowances (R62) -/

/-- R62: a station with no base share asks for its demand, and gets its part of the capacity when the demands exceed
it. -/
theorem allowance_noBase {line : LineState} (hl : line = .active ∨ line = .mute) (own peers capacity : MilliWatt) :
    allowance line own peers capacity 0 =
      if own + peers ≤ capacity then own else own * capacity / (own + peers) := by
  have hactive : allowance line own peers capacity 0 =
      if own ≤ 0 then own else if own + peers ≤ capacity then own else max 0 (capacity * own / (own + peers)) := by
    rcases hl with rfl | rfl <;> rfl
  rw [hactive, Nat.zero_max, Nat.mul_comm capacity]
  by_cases h0 : own ≤ 0
  · obtain rfl : own = 0 := Nat.le_zero.1 h0
    simp
  · rw [if_neg h0]

/-- R61, R62: the peer sum of each station of the group is what the others demand. -/
theorem sum_allowance_le (demands : List Nat) (capacity : Nat) :
    (demands.map fun d => allowance .active d (demands.sum - d) capacity 0).sum ≤ capacity := by
  have hshare : ∀ d ∈ demands, allowance .active d (demands.sum - d) capacity 0 =
      if demands.sum ≤ capacity then d else d * capacity / demands.sum := fun d hd => by
    rw [allowance_noBase (.inl rfl), Nat.add_sub_cancel' (List.single_le_sum (fun _ _ => Nat.zero_le _) d hd)]
  rw [List.map_congr_left hshare]
  by_cases h : demands.sum ≤ capacity
  · simp [h]
  · simpa [h] using sum_scaled_le (fun d : Nat => d) (l := demands) (given := capacity) (by simp)

/-! ## One recomputation that starts no request (R63) -/

/-- R48, R60: the outputs follow the lamp allowance that is handed over. -/
theorem handLampAllowance_lamp (s : State) (c : Fin 12) :
    s.handLampAllowance.lamps[c] =
      { s.lamps[c] with
        output :=
          if s.settings.channels[c].rating = 0 then 0
          else outputLevel s.lamps[c].programmed s.handLampAllowance.share.lampDemand
            s.handLampAllowance.share.lampAllowance } :=
  refreshOutputs_lamp _ c

theorem recompute_share (h : NothingWaits s) :
    s.recompute.share =
      { s.formAllowance.share with lampAllowance := s.formAllowance.share.allowance - s.startedDemand } := by
  rw [recompute_quiet h]
  show s.formAllowance.handLampAllowance.share = _
  have hd : s.formAllowance.startedDemand = s.startedDemand := startedDemand_congr (by simp) (by simp) (by simp)
  rw [State.handLampAllowance_share, hd, State.formAllowance_share]

/-- R48, R49, R63: the outputs follow the lamp demand and the lamp allowance just worked out. -/
theorem recompute_lamp (h : NothingWaits s) (c : Fin 12) :
    s.recompute.lamps[c] =
      { s.lamps[c] with
        output :=
          if s.settings.channels[c].rating = 0 then 0
          else outputLevel s.lamps[c].programmed s.recompute.share.lampDemand s.recompute.share.lampAllowance } := by
  rw [recompute_quiet h]
  dsimp only
  rw [handLampAllowance_lamp, State.formAllowance_lamps, State.formAllowance_settings]

/-- Settles O33: the group's sum of rounded parts, and the share record and the lamps after a recomputation. -/
theorem recomputationSharesSupply : Obligations.RecomputationSharesSupply := by
  refine ⟨sum_allowance_le, fun s hn => ?_⟩
  intro own a t
  have hshare : t.share =
      { s.share with
        lampDemand := s.lampDemand, motorDemand := s.motorDemand, startedDemand := s.startedDemand
        ownDemand := own, peerSum := s.peerSum, allowance := a, lampAllowance := a - s.startedDemand } := by
    have hmilli : ∀ w, milli w = 1000 * w := fun w => Nat.mul_comm w 1000
    rw [recompute_share hn, State.formAllowance_share, hmilli, hmilli]
  refine ⟨hshare, fun c => ?_, ?_⟩
  · rw [recompute_lamp hn, hshare]
    rfl
  · obtain ⟨lamps, share, hrec, -⟩ := recompute_frame hn
    show s.recompute = { s with share := s.recompute.share, lamps := s.recompute.lamps, announceCheck := true }
    rw [hrec]

end Sys2Proof.Machine
end

section
/-! The allowance of a station (R62), and its announcements (R74, R75, R138). -/

namespace Sys2Proof.Machine

variable {s : State}

/-! ## The allowance (R62) -/

theorem allowance_sharing {line : LineState} (hl : line = .active ∨ line = .mute)
    (own peers capacity base : MilliWatt) :
    allowance line own peers capacity base =
      if own ≤ base then own
      else if own + peers ≤ capacity then own else max base (capacity * own / (own + peers)) := by
  rcases hl with rfl | rfl <;> rfl

theorem allowance_alone {line : LineState} (hl : line = .joining ∨ line = .silent)
    (own peers capacity base : MilliWatt) : allowance line own peers capacity base = min own base := by
  rcases hl with rfl | rfl <;> rfl

/-- A proportional part of a capacity that the demands exceed is no more than the station's own demand. -/
theorem part_le_own {own peers capacity : MilliWatt} (h : capacity < own + peers) :
    capacity * own / (own + peers) ≤ own :=
  Nat.div_le_of_le_mul (Nat.mul_le_mul_right own (Nat.le_of_lt h))

/-- R62: the two bounds of the allowance of a station whose line is not OFF. -/
theorem allowance_bounds {line : LineState} (hl : line ≠ .off) (own peers capacity base : MilliWatt) :
    allowance line own peers capacity base ≤ own ∧ min own base ≤ allowance line own peers capacity base := by
  have hshared (h : line = .active ∨ line = .mute) : allowance line own peers capacity base ≤ own ∧
      min own base ≤ allowance line own peers capacity base := by
    rw [allowance_sharing h]
    split
    · exact ⟨Nat.le_refl _, Nat.min_le_left _ _⟩
    · rename_i hbase
      split
      · exact ⟨Nat.le_refl _, Nat.min_le_left _ _⟩
      · rename_i hfull
        exact ⟨Nat.max_le.2 ⟨Nat.le_of_not_le hbase, part_le_own (Nat.lt_of_not_le hfull)⟩,
          (Nat.min_le_right _ _).trans (Nat.le_max_left _ _)⟩
  have halone (h : line = .joining ∨ line = .silent) : allowance line own peers capacity base ≤ own ∧
      min own base ≤ allowance line own peers capacity base := by
    rw [allowance_alone h]
    exact ⟨Nat.min_le_left _ _, Nat.le_refl _⟩
  cases line with
  | off => exact absurd rfl hl
  | joining => exact halone (.inl rfl)
  | silent => exact halone (.inr rfl)
  | active => exact hshared (.inl rfl)
  | mute => exact hshared (.inr rfl)

/-- Settles O31: each branch of the allowance, and its two bounds. -/
theorem allowanceFollowsLineState : Obligations.AllowanceFollowsLineState := by
  intro own peers capacity base
  refine ⟨fun line hl => allowance_alone hl own peers capacity base, fun line hl => ?_,
    fun line hl => allowance_bounds hl own peers capacity base⟩
  rw [allowance_sharing hl]
  exact ⟨fun h => if_pos h, fun hb h => (if_neg (Nat.not_le.2 hb)).trans (if_pos h),
    fun hb h => (if_neg (Nat.not_le.2 hb)).trans (if_neg (Nat.not_le.2 h))⟩

/-! ## Announcements (R74, R75) -/

/-- The LOAD that the station hands over now (R74). -/
def presentLoad (s : State) : TxEntry := ⟨.load s.announcedDemand s.settings.group s.halted, s.now, false, 0⟩

/-- R138: a LOAD is in the last class, and joins the end of the queue. -/
theorem insertTx_last {e : TxEntry} (h : e.isLoad = true) : ∀ q : List TxEntry, insertTx e q = q ++ [e]
  | [] => rfl
  | x :: xs => by
    have hc : e.body.cls = 3 := by
      have hk : e.body.kind = .load := beq_iff_eq.1 h
      unfold FrameBody.cls
      rw [hk]
      rfl
    have hx := cls_le_three x.body
    rw [insertTx, if_neg (by omega), insertTx_last h xs]
    rfl

theorem any_isLoad_false {q : List TxEntry} (h : ∀ e ∈ q, e.isLoad = false) : (q.any fun x => x.isLoad) = false := by
  simpa using h

theorem any_loading_false {q : List TxEntry} (h : ∀ e ∈ q, e.isLoad = true → e.inTransmission = false) :
    (q.any fun x => x.isLoad && x.inTransmission) = false := by
  simpa using h

/-- R138: with no LOAD in transmission, the LOAD handed over takes the place of one that waits. -/
theorem handOverLoad_replaces (hw : ∃ e ∈ s.line.queue, e.isLoad = true)
    (ht : ∀ e ∈ s.line.queue, e.isLoad = true → e.inTransmission = false) :
    s.handOverLoad.line.queue = s.line.queue.map fun e => if e.isLoad then presentLoad s else e := by
  unfold State.handOverLoad State.handOver State.handOverFor
  simp only [any_loading_false ht, List.any_eq_true.2 hw]
  rfl

/-- R138: with no LOAD in the queue, the LOAD handed over joins its end while there is room. -/
theorem handOverLoad_joins (hn : ∀ e ∈ s.line.queue, e.isLoad = false) (hq : s.line.queue.length < 8) :
    s.handOverLoad.line.queue = s.line.queue ++ [presentLoad s] := by
  rw [← insertTx_last (e := presentLoad s) rfl]
  unfold State.handOverLoad State.handOver State.handOverFor State.enterTx
  simp only [any_loading_false fun e he hl => absurd hl (by rw [hn e he]; decide), any_isLoad_false hn, if_pos hq]
  rfl

theorem exec_announcementDue (hr : Ready s) :
    exec .announcementDue s = .next (if s.announcementDue then s.handOverLoad else s) := by
  show execAnnouncementDue s = _
  unfold execAnnouncementDue
  rw [inShow_of_ready hr, Bool.true_and]
  split
  · obtain ⟨hw, hc⟩ := handOverLoad_works s
    exact event_quiet rfl ⟨hw.trans hr.settled.noWorks, hc.trans hr.settled.noCheck⟩
  · rfl

/-- Settles O35: the event by whether a LOAD is due, and the LOAD by what waits in the queue. -/
theorem announcementHandsOverLoad : Obligations.AnnouncementHandsOverLoad := by
  intro s hr w load due
  have hdue : s.announcementDue = true ↔ due := announcementDue_iff s
  rw [exec_announcementDue hr]
  refine ⟨fun hn => by rw [if_neg fun h => hn (hdue.1 h)], fun h => ⟨_, by rw [if_pos (hdue.2 h)], ?_⟩⟩
  obtain ⟨la, q, held, fl, hload, rfl, -⟩ := handOverLoad_frame s
  refine ⟨by rw [hload]; rfl, handOverLoad_joins, handOverLoad_replaces, ?_⟩
  rw [hload]

end Sys2Proof.Machine
end

section
/-! A pass of the admission list (R65, R66, R73): what handing a frame over may change, what starting an entry changes,
and what becomes of each entry. -/

namespace Sys2Proof.Machine

variable {s t u : State}

/-! ## Frames handed over (R138, R139) -/

/-- What a frame handed over may change: the transmit queue, the LOAD held aside, the fault list, and with the discard of
a TALK_INTENT the player and the reports to the Scene Engine. -/
def SendsOnly (s t : State) : Prop :=
  ∃ queue held faults player slots works,
    t = { s with
      line.queue := queue, line.heldLoad := held, faults := faults, player := player, engine.slots := slots
      works := works }

namespace SendsOnly

theorem trans (h : SendsOnly s t) (h' : SendsOnly t u) : SendsOnly s u := by
  obtain ⟨_, _, _, _, _, _, rfl⟩ := h
  obtain ⟨_, _, _, _, _, _, rfl⟩ := h'
  exact ⟨_, _, _, _, _, _, rfl⟩

theorem settings (h : SendsOnly s t) : t.settings = s.settings := by obtain ⟨_, _, _, _, _, _, rfl⟩ := h; rfl
theorem share (h : SendsOnly s t) : t.share = s.share := by obtain ⟨_, _, _, _, _, _, rfl⟩ := h; rfl
theorem drives (h : SendsOnly s t) : t.drives = s.drives := by obtain ⟨_, _, _, _, _, _, rfl⟩ := h; rfl
theorem track (h : SendsOnly s t) : t.track = s.track := by obtain ⟨_, _, _, _, _, _, rfl⟩ := h; rfl

end SendsOnly

theorem sendsOnly_withPlayer (s : State) (p : Player) : SendsOnly s { s with player := p } := ⟨_, _, _, _, _, _, rfl⟩

theorem sendsOnly_setTxQueue (s : State) (q : List TxEntry) : SendsOnly s (s.setTxQueue q) := ⟨_, _, _, _, _, _, rfl⟩

theorem ReportsOnly.sendsOnly (h : ReportsOnly s t) : SendsOnly s t := by
  obtain ⟨_, _, rfl⟩ := h
  exact ⟨_, _, _, _, _, _, rfl⟩

theorem sendsOnly_reportSay (s : State) (e : SayEntry) (h : Handle) : SendsOnly s (s.reportSay e h) :=
  (reportSay_reports s e h).sendsOnly

theorem sendsOnly_returnSay (s : State) (e : SayEntry) : SendsOnly s (s.returnSay e) := by
  unfold State.returnSay
  split
  · exact sendsOnly_reportSay s _ _
  · split
    · exact sendsOnly_withPlayer s _
    · simp only []
      split
      · exact (sendsOnly_withPlayer s _).trans (sendsOnly_reportSay _ _ _)
      · split
        · have hdropped (q : List SayEntry) (x : SayEntry) : SendsOnly s ((s.setSayQueue q).reportSay x .dropped) :=
            (sendsOnly_withPlayer s _).trans (sendsOnly_reportSay _ _ _)
          split
          · exact hdropped _ _
          · exact (hdropped _ _).trans (sendsOnly_reportSay _ _ _)
        · exact sendsOnly_withPlayer s s.player

theorem sendsOnly_intentDiscarded (s : State) (claim : Nat) : SendsOnly s (s.intentDiscarded claim) := by
  unfold State.intentDiscarded State.endClaim
  split
  · split
    · exact ((sendsOnly_withPlayer s _).trans (sendsOnly_returnSay _ _)).trans (sendsOnly_withPlayer _ _)
    · exact sendsOnly_withPlayer s _
  · exact sendsOnly_withPlayer s s.player

theorem sendsOnly_discardTx (s : State) (e : TxEntry) : SendsOnly s (s.discardTx e) := by
  have hrecord : SendsOnly s (s.recordFault .lineOverrun e.body.cls) := ⟨_, _, _, _, _, _, rfl⟩
  unfold State.discardTx
  simp only []
  split
  · exact hrecord.trans (sendsOnly_intentDiscarded _ _)
  · exact hrecord

theorem sendsOnly_enterTx (s : State) (e : TxEntry) : SendsOnly s (s.enterTx e) := by
  unfold State.enterTx
  split
  · exact sendsOnly_setTxQueue s _
  · split
    · exact (sendsOnly_setTxQueue s _).trans (sendsOnly_discardTx _ _)
    · split
      · exact (sendsOnly_setTxQueue s _).trans (sendsOnly_discardTx _ _)
      · exact sendsOnly_discardTx s _

theorem sendsOnly_handOverFor (s : State) (claim : Nat) (body : FrameBody) : SendsOnly s (s.handOverFor claim body) := by
  unfold State.handOverFor
  simp only []
  split
  · split
    · exact ⟨_, _, _, _, _, _, rfl⟩
    · split
      · exact sendsOnly_setTxQueue s _
      · exact sendsOnly_enterTx s _
  · exact sendsOnly_enterTx s _

/-! ## Starting one entry (R66) -/

/-- The state with the block ASKED and its two timers running (R121). -/
def askedNow (s : State) : State :=
  { s with
    track.state := .askingAsked, track.retryTimer := some (s.now + 100), track.giveUpTimer := some (s.now + 6000) }

/-- Everything that starting an entry can do. -/
theorem startEntry_cases (s : State) (e : AdmissionEntry) :
    (e.kind = .driveRun ∧ s.drives[e.drive].pending = none ∧ s.startEntry e = s) ∨
    (e.kind = .driveRun ∧ ∃ kind, s.drives[e.drive].pending = some kind ∧
      s.startEntry e =
        s.setDrive e.drive (startedRun s.drives[e.drive] kind s.settings.drives[e.drive] s.now s.clockMs)) ∨
    (e.kind = .segmentSend ∧ SendsOnly (askedNow s) (s.startEntry e)) ∨
    (e.kind = .segmentStart ∧ s.startEntry e = s.runSegment) := by
  cases hk : e.kind with
  | driveRun =>
    cases hp : s.drives[e.drive].pending with
    | none =>
      refine .inl ⟨rfl, rfl, ?_⟩
      unfold State.startEntry
      simp only [hk, hp]
    | some kind => exact .inr (.inl ⟨rfl, kind, rfl, startEntry_driveRun hk rfl hp⟩)
  | segmentSend =>
    refine .inr (.inr (.inl ⟨rfl, ?_⟩))
    unfold State.startEntry
    simp only [hk]
    exact sendsOnly_handOverFor (askedNow s) _ _
  | segmentStart =>
    refine .inr (.inr (.inr ⟨rfl, ?_⟩))
    unfold State.startEntry
    simp only [hk]

/-- The state in which a run of each kind starts (R106, R108). -/
def PendingKind.runState : PendingKind → DriveState
  | .move => .moving
  | .home => .homing

theorem startedRun_state (p : Drive) (kind : PendingKind) (c : DriveSettings) (now : Tick) (clockMs : Nat) :
    (startedRun p kind c now clockMs).state = kind.runState := by
  cases kind with
  | home => rfl
  | move =>
    unfold startedRun Drive.startMove Drive.takePhase
    simp only []
    split <;> rfl

/-- R60: what it is for a drive or the segment to run. -/
theorem runs_iff {j : Fin 4} : s.runs j = true ↔
    s.drives[j].state = .moving ∨ s.drives[j].state = .homing ∨
      (s.drives[j].state = .track ∧ s.track.running = true) := by
  unfold State.runs
  cases s.drives[j].state <;> simp

theorem runSegment_drive (s : State) : s.runSegment.drives[(3 : Fin 4)] = runningSegment s :=
  setDrive_same (s := { s with track.running := true }) 3 _

theorem runSegment_drive_other (s : State) {j : Fin 4} (hj : j ≠ 3) : s.runSegment.drives[j] = s.drives[j] :=
  setDrive_other (s := { s with track.running := true }) _ hj

section

variable {e : AdmissionEntry} {j : Fin 4}

theorem startEntry_settings : (s.startEntry e).settings = s.settings := by
  obtain ⟨-, -, h⟩ | ⟨-, _, -, h⟩ | ⟨-, h⟩ | ⟨-, h⟩ := startEntry_cases s e
  · rw [h]
  · rw [h]; rfl
  · exact h.settings
  · rw [h]; rfl

theorem startEntry_share : (s.startEntry e).share = s.share := by
  obtain ⟨-, -, h⟩ | ⟨-, _, -, h⟩ | ⟨-, h⟩ | ⟨-, h⟩ := startEntry_cases s e
  · rw [h]
  · rw [h]; rfl
  · exact h.share
  · rw [h]; rfl

/-- An entry's start touches no drive but its own; the segment is drive 3. -/
theorem startEntry_drive_other (h3 : e.kind = .segmentStart → e.drive = 3) (hj : j ≠ e.drive) :
    (s.startEntry e).drives[j] = s.drives[j] := by
  obtain ⟨-, -, h⟩ | ⟨-, _, -, h⟩ | ⟨-, h⟩ | ⟨hk, h⟩ := startEntry_cases s e
  · rw [h]
  · rw [h]
    exact setDrive_other _ hj
  · rw [h.drives]
    rfl
  · rw [h]
    exact runSegment_drive_other s (h3 hk ▸ hj)

/-- Nothing but the start of the segment orders it to run, and no start orders it to stop. -/
theorem startEntry_running : (s.startEntry e).track.running = (s.track.running || decide (e.kind = .segmentStart)) := by
  obtain ⟨hk, -, h⟩ | ⟨hk, _, -, h⟩ | ⟨hk, h⟩ | ⟨hk, h⟩ := startEntry_cases s e
  · rw [h, hk]
    exact (Bool.or_false _).symm
  · rw [h, hk]
    exact (Bool.or_false _).symm
  · rw [h.track, hk]
    exact (Bool.or_false _).symm
  · rw [h, hk]
    exact (Bool.or_true _).symm

/-- Nothing but the send of the segment moves the block. -/
theorem startEntry_track_state (hk : e.kind ≠ .segmentSend) : (s.startEntry e).track.state = s.track.state := by
  obtain ⟨-, -, h⟩ | ⟨-, _, -, h⟩ | ⟨hs, -⟩ | ⟨-, h⟩ := startEntry_cases s e
  · rw [h]
  · rw [h]; rfl
  · exact absurd hs hk
  · rw [h]; rfl

/-- The state of a drive after a start: as it was, MOVING or HOMING. -/
theorem startEntry_drive_state (s : State) (e : AdmissionEntry) (j : Fin 4) :
    (s.startEntry e).drives[j].state = s.drives[j].state ∨
      (s.startEntry e).drives[j].state = .moving ∨ (s.startEntry e).drives[j].state = .homing := by
  obtain ⟨-, -, h⟩ | ⟨-, kind, -, h⟩ | ⟨-, h⟩ | ⟨-, h⟩ := startEntry_cases s e
  · exact .inl (by rw [h])
  · rw [h]
    by_cases hj : j = e.drive
    · subst hj
      rw [setDrive_same, startedRun_state]
      cases kind
      · exact .inr (.inl rfl)
      · exact .inr (.inr rfl)
    · exact .inl (by rw [setDrive_other _ hj])
  · exact .inl (by rw [h.drives]; rfl)
  · rw [h]
    by_cases hj : j = 3
    · subst hj
      exact .inl (by rw [runSegment_drive]; rfl)
    · exact .inl (congrArg Drive.state (runSegment_drive_other s hj))

/-- R60: what runs goes on running. -/
theorem startEntry_runs (h : s.runs j = true) : (s.startEntry e).runs j = true := by
  rw [runs_iff] at h ⊢
  obtain hst | hst | hst := startEntry_drive_state s e j
  · rw [hst, startEntry_running]
    exact h.imp_right (Or.imp_right (And.imp_right fun hr => by rw [hr]; rfl))
  · exact .inl hst
  · exact .inr (.inl hst)

/-- R60: with no other drive in TRACK, a start makes no drive run but its own. -/
theorem startEntry_runs_other (h3 : e.kind = .segmentStart → e.drive = 3)
    (ht : ∀ d : Fin 4, s.drives[d].state = .track → d = 3) (hj : j ≠ e.drive) :
    (s.startEntry e).runs j = s.runs j := by
  rw [Bool.eq_iff_iff, runs_iff, runs_iff, startEntry_drive_other h3 hj, startEntry_running]
  refine or_congr_right (or_congr_right (and_congr_right fun hst => ?_))
  have hk : e.kind ≠ .segmentStart := fun hk => hj ((ht j hst).trans (h3 hk).symm)
  rw [decide_eq_false hk, Bool.or_false]

end

/-! ## A pass of the list (R65) -/

/-- What every start of a pass keeps: the settings, the share record but the list, which only loses entries, and the run
of each drive. -/
structure PassKeeps (s t : State) : Prop where
  settings : t.settings = s.settings
  allowance : t.share.allowance = s.share.allowance
  runs : ∀ j : Fin 4, s.runs j = true → t.runs j = true
  running : s.track.running = true → t.track.running = true
  list : ∀ e ∈ t.share.admissions, e ∈ s.share.admissions

namespace PassKeeps

theorem refl (s : State) : PassKeeps s s := ⟨rfl, rfl, fun _ => id, id, fun _ => id⟩

theorem trans (h : PassKeeps s t) (h' : PassKeeps t u) : PassKeeps s u where
  settings := h'.settings.trans h.settings
  allowance := h'.allowance.trans h.allowance
  runs j hj := h'.runs j (h.runs j hj)
  running hr := h'.running (h.running hr)
  list e he := h.list e (h'.list e he)

theorem startedDemand_le (h : PassKeeps s t) : s.startedDemand ≤ t.startedDemand := by
  unfold State.startedDemand State.driveWatts
  rw [h.settings]
  refine List.sum_le_sum fun j _ => ?_
  split
  · rename_i hj
    rw [if_pos (h.runs j hj)]
  · exact Nat.zero_le _

end PassKeeps

/-- The state with one entry off the list and started. -/
def startedEntry (s : State) (e : AdmissionEntry) : State := (s.dropEntry e.drive).startEntry e

section

variable {e : AdmissionEntry} {d : Fin 4}

theorem startedEntry_admissions :
    (startedEntry s e).share.admissions = s.share.admissions.filter fun x => x.drive != e.drive := by
  unfold startedEntry
  rw [startEntry_share]
  rfl

theorem startedEntry_keeps : PassKeeps s (startedEntry s e) where
  settings := startEntry_settings
  allowance := by unfold startedEntry; rw [startEntry_share]; rfl
  runs _ h := startEntry_runs (s := s.dropEntry e.drive) h
  running h := by unfold startedEntry; rw [startEntry_running, show (s.dropEntry e.drive).track = s.track from rfl, h]; rfl
  list x hx := by
    rw [startedEntry_admissions] at hx
    exact List.mem_of_mem_filter hx

theorem testEntries_fits {es : List AdmissionEntry} (h : s.startedDemand + e.watts ≤ s.share.allowance) :
    State.testEntries (e :: es) s = State.testEntries es (startedEntry s e) := if_pos h

theorem testEntries_waits {es : List AdmissionEntry} (h : ¬s.startedDemand + e.watts ≤ s.share.allowance) :
    State.testEntries (e :: es) s = State.testEntries es s := if_neg h

theorem testEntries_append : ∀ (front back : List AdmissionEntry) (s : State),
    State.testEntries (front ++ back) s = State.testEntries back (State.testEntries front s)
  | [], _, _ => rfl
  | e :: front, back, s => by
    rw [List.cons_append]
    by_cases h : s.startedDemand + e.watts ≤ s.share.allowance
    · rw [testEntries_fits h, testEntries_fits h, testEntries_append front back]
    · rw [testEntries_waits h, testEntries_waits h, testEntries_append front back]

theorem testEntries_keeps : ∀ (es : List AdmissionEntry) (s : State), PassKeeps s (State.testEntries es s)
  | [], s => .refl s
  | e :: es, s => by
    by_cases h : s.startedDemand + e.watts ≤ s.share.allowance
    · rw [testEntries_fits h]
      exact startedEntry_keeps.trans (testEntries_keeps es _)
    · rw [testEntries_waits h]
      exact testEntries_keeps es s

/-- The tests of other drives' entries leave a drive, and its entry, alone. -/
theorem testEntries_other : ∀ {es : List AdmissionEntry} {s : State},
    (∀ e ∈ es, e.drive ≠ d ∧ (e.kind = .segmentStart → e.drive = 3)) →
    (State.testEntries es s).drives[d] = s.drives[d] ∧
      ∀ x ∈ s.share.admissions, x.drive = d → x ∈ (State.testEntries es s).share.admissions
  | [], s, _ => ⟨rfl, fun _ hx _ => hx⟩
  | e :: es, s, hes => by
    obtain ⟨hd, h3⟩ := hes e List.mem_cons_self
    have hrest := fun x hx => hes x (List.mem_cons_of_mem _ hx)
    by_cases h : s.startedDemand + e.watts ≤ s.share.allowance
    · rw [testEntries_fits h]
      obtain ⟨hdrive, hlist⟩ := testEntries_other (s := startedEntry s e) hrest
      refine ⟨hdrive.trans (startEntry_drive_other h3 (Ne.symm hd)), fun x hx hxd => hlist x ?_ hxd⟩
      rw [startedEntry_admissions, List.mem_filter]
      exact ⟨hx, bne_iff_ne.2 (hxd ▸ Ne.symm hd)⟩
    · rw [testEntries_waits h]
      exact testEntries_other hrest

theorem testEntries_track_state : ∀ {es : List AdmissionEntry} {s : State}, (∀ e ∈ es, e.kind ≠ .segmentSend) →
    (State.testEntries es s).track.state = s.track.state
  | [], _, _ => rfl
  | e :: es, s, hes => by
    have hrest := fun x hx => hes x (List.mem_cons_of_mem _ hx)
    by_cases h : s.startedDemand + e.watts ≤ s.share.allowance
    · rw [testEntries_fits h, testEntries_track_state (s := startedEntry s e) hrest]
      exact startEntry_track_state (hes e List.mem_cons_self)
    · rw [testEntries_waits h]
      exact testEntries_track_state hrest

/-! ## The started demand stays within the allowance (R65) -/

/-- R60: an entry of a drive's own watts adds no more than these. -/
theorem startedEntry_startedDemand_le (hw : e.watts = s.driveWatts e.drive)
    (h3 : e.kind = .segmentStart → e.drive = 3) (ht : ∀ d : Fin 4, s.drives[d].state = .track → d = 3) :
    (startedEntry s e).startedDemand ≤ s.startedDemand + e.watts := by
  have hchange := startedDemand_change (s := s) (t := startedEntry s e) (d := e.drive) startedEntry_keeps.settings
    fun j hj => startEntry_runs_other (s := s.dropEntry e.drive) h3 ht hj
  have hown : (if (startedEntry s e).runs e.drive then s.driveWatts e.drive else 0) ≤ e.watts := by
    rw [hw]
    split
    · exact Nat.le_refl _
    · exact Nat.zero_le _
  exact (Nat.le_add_right _ _).trans (hchange.trans_le (Nat.add_le_add_left hown _))

theorem testEntries_startedDemand_le : ∀ {es : List AdmissionEntry} {s : State},
    (∀ e ∈ es, e.watts = s.driveWatts e.drive ∧ (e.kind = .segmentStart → e.drive = 3)) →
    (∀ d : Fin 4, s.drives[d].state = .track → d = 3) →
    (State.testEntries es s).startedDemand ≤ max s.startedDemand s.share.allowance
  | [], _, _, _ => Nat.le_max_left _ _
  | e :: es, s, hes, ht => by
    obtain ⟨hw, h3⟩ := hes e List.mem_cons_self
    have hrest := fun x hx => hes x (List.mem_cons_of_mem _ hx)
    by_cases h : s.startedDemand + e.watts ≤ s.share.allowance
    · rw [testEntries_fits h]
      have hwatts (d : Fin 4) : (startedEntry s e).driveWatts d = s.driveWatts d := by
        unfold State.driveWatts
        rw [startedEntry_keeps.settings]
      have htrack (d : Fin 4) (hd : (startedEntry s e).drives[d].state = .track) : d = 3 := by
        obtain hst | hst | hst := startEntry_drive_state (s.dropEntry e.drive) e d
        · exact ht d (hst.symm.trans hd)
        · exact absurd (hd.symm.trans hst) (by decide)
        · exact absurd (hd.symm.trans hst) (by decide)
      have hafter := testEntries_startedDemand_le (es := es) (s := startedEntry s e)
        (fun x hx => by rw [hwatts]; exact hrest x hx) htrack
      have hnow := startedEntry_startedDemand_le hw h3 ht
      rw [startedEntry_keeps.allowance] at hafter
      exact hafter.trans (max_le ((hnow.trans h).trans (le_max_right _ _)) (le_max_right _ _))
    · rw [testEntries_waits h]
      exact testEntries_startedDemand_le hrest ht

/-! ## What becomes of each entry (R65, R66) -/

/-- An entry that a pass leaves waiting: its drive is as it was, and its watts would exceed the allowance. -/
structure WaitsOn (s t : State) (e : AdmissionEntry) : Prop where
  listed : e ∈ t.share.admissions
  drive : t.drives[e.drive] = s.drives[e.drive]
  exceeds : s.share.allowance < t.startedDemand + e.watts

/-- An entry that a pass starts: it has left the list, and runs. -/
structure HasStarted (s t : State) (e : AdmissionEntry) : Prop where
  unlisted : e ∉ t.share.admissions
  fitted : s.startedDemand + e.watts ≤ s.share.allowance
  moves : e.kind = .driveRun → s.drives[e.drive].pending = some .move → t.drives[e.drive].state = .moving
  homes : e.kind = .driveRun → s.drives[e.drive].pending = some .home → t.drives[e.drive].state = .homing
  asks : e.kind = .segmentSend → t.track.state = .askingAsked
  runs : e.kind = .segmentStart → t.track.running = true

/-- R66: a drive's entry that has just started, by its pending kind. -/
theorem startedEntry_drive_state {kind : PendingKind} (hk : e.kind = .driveRun)
    (hp : s.drives[e.drive].pending = some kind) :
    (startedEntry s e).drives[e.drive].state = kind.runState := by
  unfold startedEntry
  rw [startEntry_driveRun (s := s.dropEntry e.drive) hk rfl hp, setDrive_same, startedRun_state]

/-- R66: the send of the segment that has just started. -/
theorem startedEntry_asked (hk : e.kind = .segmentSend) : (startedEntry s e).track.state = .askingAsked := by
  obtain ⟨h, -⟩ | ⟨h, -⟩ | ⟨-, h⟩ | ⟨h, -⟩ := startEntry_cases (s.dropEntry e.drive) e
  · exact absurd (h.symm.trans hk) (by decide)
  · exact absurd (h.symm.trans hk) (by decide)
  · exact congrArg Track.state h.track
  · exact absurd (h.symm.trans hk) (by decide)

/-- R72: the segment that has just started. -/
theorem startedEntry_running (hk : e.kind = .segmentStart) : (startedEntry s e).track.running = true := by
  unfold startedEntry
  rw [startEntry_running, hk]
  exact Bool.or_true _

theorem startedEntry_unlisted : e ∉ (startedEntry s e).share.admissions := by
  rw [startedEntry_admissions, List.mem_filter]
  exact fun h => bne_iff_ne.1 h.2 rfl

/-- R65, R66: in a list with one entry for each drive an entry waits on or starts, as its own test says. -/
theorem testEntries_outcome {front back : List AdmissionEntry} (hadm : e ∈ s.share.admissions)
    (hf : ∀ x ∈ front, x.drive ≠ e.drive) (hb : ∀ x ∈ back, x.drive ≠ e.drive)
    (h3 : ∀ x ∈ front ++ e :: back, x.kind ≠ .driveRun → x.drive = 3) :
    let t := State.testEntries (front ++ e :: back) s
    WaitsOn s t e ∨ HasStarted s t e := by
  intro t
  have hstart {x : AdmissionEntry} (hx : x ∈ front ++ e :: back) (hk : x.kind = .segmentStart) : x.drive = 3 :=
    h3 x hx (by rw [hk]; decide)
  obtain ⟨hdrive, hstays⟩ := testEntries_other (s := s) fun x hx => ⟨hf x hx, hstart (List.mem_append_left _ hx)⟩
  have hkeeps := testEntries_keeps front s
  have ht : t = State.testEntries (e :: back) (State.testEntries front s) := testEntries_append front (e :: back) s
  have hlisted := hstays e hadm rfl
  generalize State.testEntries front s = v at hdrive hkeeps ht hlisted
  have hback (x : AdmissionEntry) (hx : x ∈ back) : x.drive ≠ e.drive ∧ (x.kind = .segmentStart → x.drive = 3) :=
    ⟨hb x hx, hstart (by simp [hx])⟩
  by_cases h : v.startedDemand + e.watts ≤ v.share.allowance
  · right
    rw [testEntries_fits h] at ht
    obtain ⟨hdone, -⟩ := testEntries_other (s := startedEntry v e) hback
    have hrest := testEntries_keeps back (startedEntry v e)
    have hstate {kind : PendingKind} (hk : e.kind = .driveRun) (hp : s.drives[e.drive].pending = some kind) :
        t.drives[e.drive].state = kind.runState := by
      rw [ht, hdone]
      exact startedEntry_drive_state hk (by rw [hdrive]; exact hp)
    refine ⟨fun hx => startedEntry_unlisted (hrest.list e (ht ▸ hx)), ?_, hstate, hstate, fun hk => ?_, fun hk => ?_⟩
    · rw [← hkeeps.allowance]
      exact (Nat.add_le_add_right hkeeps.startedDemand_le _).trans h
    · have h3e : e.drive = 3 := h3 e (by simp) (by rw [hk]; decide)
      rw [ht, testEntries_track_state fun x hx hkx => ?_]
      · exact startedEntry_asked hk
      · exact hb x hx ((h3 x (by simp [hx]) (by rw [hkx]; decide)).trans h3e.symm)
    · rw [ht]
      exact hrest.running (startedEntry_running hk)
  · left
    rw [testEntries_waits h] at ht
    obtain ⟨hdone, hlist⟩ := testEntries_other (s := v) hback
    refine ⟨by rw [ht]; exact hlist e hlisted rfl, by rw [ht]; exact hdone.trans hdrive, ?_⟩
    rw [ht, ← hkeeps.allowance]
    exact (Nat.lt_of_not_le h).trans_le (Nat.add_le_add_right (testEntries_keeps back v).startedDemand_le _)

end

theorem testAdmissions_halted (h : s.halt ≠ none) : s.testAdmissions = s := if_pos (Option.isSome_iff_ne_none.2 h)

theorem testAdmissions_running (h : s.halt = none) :
    s.testAdmissions = State.testEntries s.share.admissions s := by
  refine if_neg ?_
  unfold State.halted
  rw [h]
  decide

/-- Settles O34: while HALTED nothing, else each entry by its own test. -/
theorem admissionPassWithinAllowance : Obligations.AdmissionPassWithinAllowance := by
  intro s list t
  refine ⟨testAdmissions_halted, fun hw ht => ?_, fun hh hone h3 => ?_⟩
  · by_cases hh : s.halt = none
    · rw [show t = _ from testAdmissions_running hh]
      exact testEntries_startedDemand_le hw ht
    · rw [show t = s from testAdmissions_halted hh]
      exact Nat.le_max_left _ _
  · have hrun : t = State.testEntries list s := testAdmissions_running hh
    have houtcome (e : AdmissionEntry) (he : e ∈ list) : WaitsOn s t e ∨ HasStarted s t e := by
      obtain ⟨front, back, hsplit⟩ := List.append_of_mem he
      rw [hsplit] at hrun hone h3
      obtain ⟨-, hback, hfront⟩ := List.pairwise_append.1 hone
      exact hrun ▸ testEntries_outcome he (fun x hx => hfront x hx e List.mem_cons_self)
        (fun x hx => ((List.pairwise_cons.1 hback).1 x hx).symm) h3
    have hlist : ∀ e ∈ t.share.admissions, e ∈ list := hrun ▸ (testEntries_keeps list s).list
    refine ⟨fun e es hl hfits he => ?_, fun e he => ⟨hlist e he, ?_⟩, fun e he hex => ?_, fun e he hleft => ?_⟩
    · rw [hrun, hl, testEntries_fits hfits] at he
      exact startedEntry_unlisted ((testEntries_keeps es _).list e he)
    · exact (houtcome e (hlist e he)).elim (·.exceeds) fun h => absurd he h.unlisted
    · exact (houtcome e he).elim (fun h => ⟨h.listed, h.drive⟩) fun h => absurd h.fitted (Nat.not_le.2 hex)
    · have hs := (houtcome e he).resolve_left fun h => hleft h.listed
      exact ⟨hs.moves, hs.homes, hs.asks, hs.runs⟩

end Sys2Proof.Machine
end

section
/-! The orders to the track segment (R72, R105, R117), and how a BLOCK_ASK is answered (R71, R120, R126). -/

namespace Sys2Proof.Machine

variable {s t u v : State}

/-! ## Demands and outputs of the segment -/

/-- R60: the started demand depends on the segment's run alone of what the track block holds. -/
theorem startedDemand_running (hs : t.settings = s.settings) (hd : t.drives = s.drives)
    (hr : t.track.running = s.track.running) : t.startedDemand = s.startedDemand := by
  unfold State.startedDemand State.runs State.driveWatts
  rw [hs, hd, hr]

/-- R59: the motor demand depends on the drives that claim the supply. -/
theorem motorDemand_claims (hs : t.settings = s.settings) (hc : ∀ j, t.claims j = s.claims j) :
    t.motorDemand = s.motorDemand := by
  unfold State.motorDemand State.driveWatts
  simp only [hs, hc]

/-- R103, R105, R119: the output of the running segment, at class 0 when its own class has duty 0. -/
theorem driveOutput_segment (hs : s.drives[(3 : Fin 4)].state = .track) (hr : s.track.running = true) :
    s.driveOutput 3 =
      .drive s.drives[(3 : Fin 4)].up
        (if s.settings.drives[(3 : Fin 4)].duties[s.track.speedClass] = 0 then
          s.settings.drives[(3 : Fin 4)].duties[(0 : Fin 4)]
        else s.settings.drives[(3 : Fin 4)].duties[s.track.speedClass]) := by
  unfold State.driveOutput State.segmentClass
  simp only [hs, hr, if_true]
  split <;> rfl

/-! ## The start test of a segment (R72) -/

/-- R63: a recomputation in which no request passes its test. -/
theorem recompute_unstarted (h : s.formAllowance.testAdmissions = s.formAllowance) :
    ∃ lamps share, s.recompute = { s with lamps := lamps, share := share, announceCheck := true } ∧
      share.admissions = s.share.admissions ∧ share.startedDemand = s.startedDemand := by
  obtain ⟨lamps, share, hl, -, -, hd, -, ha⟩ := handLampAllowance_frame s.formAllowance
  have honce : s.recomputeOnce = { s with lamps := lamps, share := share, announceCheck := true } := by
    unfold State.recomputeOnce
    rw [h, hl]
    rfl
  have hnone : s.homedAtOnce s.recomputeOnce = [] := homedAtOnce_same (by rw [honce])
  refine ⟨lamps, share, ?_, ha, hd⟩
  unfold State.recompute
  rw [State.recomputeUpTo]
  simp only [hnone, List.append_nil]
  exact honce

/-- R72: the segment of a block that hands over runs at once when it passes its start test. -/
theorem segmentStartTest_runs (h : s.startedDemand + s.driveWatts 3 ≤ s.share.allowance) :
    ∃ lamps share, s.segmentStartTest = { s.runSegment with lamps := lamps, share := share } ∧
      share.startedDemand = s.segmentStartTest.startedDemand := by
  have htest : s.segmentStartTest = s.runSegment.handLampAllowance := if_pos h
  obtain ⟨lamps, share, hl, -, -, hd, -, -⟩ := handLampAllowance_frame s.runSegment
  rw [htest, hl]
  exact ⟨lamps, share, rfl, hd⟩

/-- The request of a segment that is to run (R72). -/
def segmentEntry (s : State) : AdmissionEntry := ⟨.segmentStart, 3, s.driveWatts 3, s.now⟩

/-- R65, R72: the segment that fails its start test waits, when its request does not fit the allowance worked out with
it either. -/
theorem segmentStartTest_waits (h : s.share.allowance < s.startedDemand + s.driveWatts 3)
    (hf : ¬FitsNow s (s.driveWatts 3)) (ha : s.share.admissions = []) :
    ∃ lamps share, s.segmentStartTest = { s with lamps := lamps, share := share, announceCheck := true } ∧
      share.admissions = [segmentEntry s] ∧ share.startedDemand = s.segmentStartTest.startedDemand := by
  have htest : s.segmentStartTest = State.recompute { s with share.admissions := [segmentEntry s] } := by
    refine (if_neg (Nat.not_le.2 h)).trans ?_
    unfold State.enterAdmission
    rw [ha]
    rfl
  have hstays : (State.formAllowance { s with share.admissions := [segmentEntry s] }).testAdmissions =
      State.formAllowance { s with share.admissions := [segmentEntry s] } := by
    by_cases hh : s.halt = none
    · exact (testAdmissions_one (s := { s with share.admissions := [segmentEntry s] }) hh rfl).trans (if_neg hf)
    · exact testAdmissions_halted hh
  obtain ⟨lamps, share, hrec, hadm, hd⟩ := recompute_unstarted hstays
  rw [htest, hrec]
  exact ⟨lamps, share, rfl, hadm, hd⟩

/-! ## Taking an ask (R71, R126) -/

/-- A frame for the track block's peer, handed over to a queue with room. -/
def answered (s : State) (body : FrameBody) : State :=
  s.setTxQueue (insertTx ⟨body, s.now, false, 0⟩ s.line.queue)

theorem handOver_answered {body : FrameBody} (hk : body.kind ≠ .load) (hq : s.line.queue.length < 8) :
    s.handOver body = answered s body := handOver_room hk hq

section

variable {source : Nat} {speedClass : Fin 4}

/-- R71: whether the trial admission passes, with the line ACTIVE. -/
theorem trialPasses_iff (hl : s.line.state = .active) :
    s.trialPasses = true ↔
      s.share.startedDemand + s.driveWatts 3 ≤
        allowance .active (s.share.ownDemand + s.driveWatts 3) s.share.peerSum (milli s.settings.capacity)
          (milli s.settings.baseShare) := by
  unfold State.trialPasses State.trialAllowance
  rw [hl, decide_eq_true_eq]

/-- R126: an EMPTY block that grants, with no other request waiting. -/
theorem takeAsk_grants (hs : s.track.state = .empty) (hh : s.halt = none) (hp : s.trialPasses = true)
    (ha : s.share.admissions = []) (hq : s.line.queue.length < 8) :
    ∃ lamps share, s.takeAsk source speedClass =
        { answered (s.enterReceiving source speedClass) (.blockGrant source) with
          lamps := lamps, share := share, announceCheck := true } ∧
      share.startedDemand = (s.takeAsk source speedClass).startedDemand := by
  have hhalted : ¬s.halted = true := by unfold State.halted; rw [hh]; decide
  have htake : s.takeAsk source speedClass =
      (answered (s.enterReceiving source speedClass) (.blockGrant source)).recompute := by
    unfold State.takeAsk
    simp only [hs]
    rw [if_neg hhalted, if_pos hp]
    exact congrArg State.recompute
      (handOver_answered (s := s.enterReceiving source speedClass) (by simp [FrameBody.kind]) hq)
  obtain ⟨lamps, share, hrec, -, -, hd, -⟩ :=
    recompute_frame (s := answered (s.enterReceiving source speedClass) (.blockGrant source)) (.inr ha)
  rw [htake, hrec]
  exact ⟨lamps, share, rfl, hd⟩

/-- R126: an EMPTY block whose trial admission fails. -/
theorem takeAsk_power (hs : s.track.state = .empty) (hh : s.halt = none) (hp : ¬s.trialPasses = true)
    (hq : s.line.queue.length < 8) : s.takeAsk source speedClass = answered s (.blockHeld source .power) := by
  have hhalted : ¬s.halted = true := by unfold State.halted; rw [hh]; decide
  unfold State.takeAsk
  simp only [hs]
  rw [if_neg hhalted, if_neg hp]
  exact handOver_answered (by simp [FrameBody.kind]) hq

/-- R126: a RECEIVING block grants its own peer again. -/
theorem takeAsk_again (hs : s.track.state = .receiving) (hp : s.track.peer = some source)
    (hq : s.line.queue.length < 8) : s.takeAsk source speedClass = answered s (.blockGrant source) := by
  unfold State.takeAsk
  simp only [hs]
  rw [if_pos hp]
  exact handOver_answered (by simp [FrameBody.kind]) hq

/-- R126: any other ask is answered BUSY. -/
theorem takeAsk_busy (h : (s.track.state = .empty ∧ s.halt ≠ none) ∨
      (s.track.state = .receiving ∧ s.track.peer ≠ some source) ∨
      (s.track.state ≠ .empty ∧ s.track.state ≠ .receiving))
    (hq : s.line.queue.length < 8) : s.takeAsk source speedClass = answered s (.blockHeld source .busy) := by
  rw [← handOver_answered (by simp [FrameBody.kind]) hq]
  unfold State.takeAsk
  obtain ⟨hs, hh⟩ | ⟨hs, hp⟩ | ⟨he, hr⟩ := h
  · simp only [hs]
    exact if_pos (Option.isSome_iff_ne_none.2 hh)
  · simp only [hs]
    exact if_neg hp
  · split
    · rename_i hs
      exact absurd hs he
    · rename_i hs
      exact absurd hs hr
    · rfl

end

/-! ## A BLOCK_ASK (R126) -/

theorem forTrack_iff {dest : Nat} : s.forTrack dest = true ↔ s.settings.trackMode = true ∧ dest = s.settings.station := by
  unfold State.forTrack
  rw [Bool.and_eq_true, beq_iff_eq]

/-- R120: whether a station takes an ask: track mode on, the line ACTIVE, from its upstream station, for itself. -/
def TakesAsk (s : State) (f : Frame) : Prop :=
  s.settings.trackMode = true ∧ f.byte 0 = s.settings.station ∧ f.source = s.settings.upstream ∧
    s.line.state = .active

theorem hearAsk_iff {f : Frame} :
    ((s.hearPeer f.source).forTrack (f.byte 0) && f.source == (s.hearPeer f.source).settings.upstream &&
        (s.hearPeer f.source).line.state == .active) = true ↔ TakesAsk s f := by
  rw [Bool.and_eq_true, Bool.and_eq_true, forTrack_iff, beq_iff_eq, beq_iff_eq, and_assoc, and_assoc]
  exact Iff.rfl

theorem exec_ask_taken {f : Frame} (h : Hears s .blockAsk f) (ht : TakesAsk s f) :
    exec (.blockAskReceived f) s =
      event (fun _ => (s.hearPeer f.source).takeAsk f.source (Fin.ofNat 4 (f.byte 1))) s :=
  event_congr ((receive_heard h _).trans (if_pos (hearAsk_iff.2 ht)))

theorem exec_ask_ignored {f : Frame} (h : Hears s .blockAsk f) (ht : ¬TakesAsk s f) :
    exec (.blockAskReceived f) s = .next (s.hearPeer f.source) :=
  event_quiet ((receive_heard h _).trans (if_neg fun hx => ht (hearAsk_iff.1 hx))) (hears_hearPeer h _)

/-- Settles O49: an ask by the four ways of answering it, the grant with the segment that it starts. -/
theorem askIsAnswered : Obligations.AskIsAnswered := by
  intro s f h u taken own passes answer
  have hu : Settled u := hears_hearPeer h _
  refine ⟨exec_ask_ignored h, fun htaken hq => ?_⟩
  rw [exec_ask_taken h htaken]
  have hpass : u.trialPasses = true ↔ passes := trialPasses_iff (s := u) htaken.2.2.2
  refine ⟨fun hs hh hp ha => ?_, fun hs hh hp => ?_, fun hs hp => ?_, fun hbusy => ?_⟩
  · obtain ⟨lamps, share, htake, hd⟩ :=
      takeAsk_grants (s := u) (source := f.source) (speedClass := Fin.ofNat 4 (f.byte 1)) hs hh (hpass.2 hp) ha hq
    have hdrive : (u.takeAsk f.source (Fin.ofNat 4 (f.byte 1))).drives[(3 : Fin 4)] = runningSegment s := by
      rw [htake]
      exact runSegment_drive _
    refine ⟨_, event_ends (body := fun _ => u.takeAsk f.source (Fin.ofNat 4 (f.byte 1))) rfl (settle_done 0 ?_)
      (by decide), ?_, ?_, ?_, ?_, ?_, ⟨_, mem_announce_queue (x := ⟨.blockGrant f.source, s.now, false, 0⟩) ?_ rfl, rfl⟩,
      ?_, ?_, fun ht => ?_⟩
    · rw [htake]; exact hu.noWorks
    · rw [announce_track, htake]; rfl
    · rw [announce_track, htake]; rfl
    · rw [announce_track, htake]; rfl
    · rw [announce_track, htake]; rfl
    · rw [announce_track, htake]; rfl
    · rw [htake]; exact mem_insertTx _ _
    · rw [announce_share_startedDemand, announce_startedDemand, ← hd, htake]
    · rw [announce_drives, hdrive]
    · rw [driveOutput_segment, announce_drives, hdrive, announce_settings, htake]
      · rfl
      · rw [announce_drives, hdrive]; exact ht
      · rw [announce_track, htake]; rfl
  · exact event_quiet (takeAsk_power (s := u) hs hh (fun hx => hp (hpass.1 hx)) hq) ⟨hu.noWorks, hu.noCheck⟩
  · exact event_quiet (takeAsk_again (s := u) hs hp hq) ⟨hu.noWorks, hu.noCheck⟩
  · exact event_quiet (takeAsk_busy (s := u) hbusy hq) ⟨hu.noWorks, hu.noCheck⟩

end Sys2Proof.Machine
end

section
/-! The replies of the track's peers (R122, R124, R128). -/

namespace Sys2Proof.Machine

variable {s t u v : State}

/-! ## What hearing a frame leaves alone (R144) -/

/-- R61, R144: a refreshed entry keeps its demand. -/
theorem hearPeer_peerSum (n : Nat) : (s.hearPeer n).peerSum = s.peerSum := by
  unfold State.peerSum State.hearPeer
  rw [setPeers_line_peers, List.map_map]
  refine congrArg List.sum (List.map_congr_left fun p _ => ?_)
  rw [Function.comp_apply]
  split <;> rfl

/-- R62, R65: whether a request fits depends on the demands, the peer sum, the line state and the settings alone. -/
theorem fitsNow_congr {w : MilliWatt} (hl : t.lampDemand = s.lampDemand) (hm : t.motorDemand = s.motorDemand)
    (hs : t.startedDemand = s.startedDemand) (hp : t.peerSum = s.peerSum) (hline : t.line.state = s.line.state)
    (hset : t.settings = s.settings) : FitsNow t w ↔ fitsWith s s.motorDemand s.startedDemand w := by
  rw [FitsNow, fitsWith, hl, hm, hs, hp, hline, hset]

/-! ## The grant (R124) -/

/-- The block as it enters SENDING, before the start test of its segment (R124). -/
def sendingNow (s : State) : State :=
  { s.withdrawBlockAsk with
    track.state := .sending, track.retryTimer := none, track.giveUpTimer := none
    track.grantTimer := .expiring (s.now + 2000), track.departSeen := s.beamBroken .depart }

theorem enterSending_eq (h : s.player.bounced = false) : s.enterSending = (sendingNow s).segmentStartTest := by
  unfold State.enterSending
  rw [retryClaim_idle (s := s.withdrawBlockAsk) h]
  rfl

/-- R59: ASKED and SENDING claim the same watts. -/
theorem sendingNow_motorDemand (h : s.track.state = .askingAsked) : (sendingNow s).motorDemand = s.motorDemand := by
  refine motorDemand_claims rfl fun j => ?_
  have hd : (sendingNow s).drives = s.drives := rfl
  have ht : (sendingNow s).track.state = .sending := rfl
  unfold State.claims
  simp only [hd, ht, h]

theorem sendingNow_startedDemand : (sendingNow s).startedDemand = s.startedDemand := startedDemand_running rfl rfl rfl

/-- R65, R72: whether the segment's request fits is the same before and after the grant is taken. -/
theorem sendingNow_fits {w : MilliWatt} (n : Nat) (h : s.track.state = .askingAsked) :
    FitsNow (sendingNow (s.hearPeer n)) w ↔ fitsWith s s.motorDemand s.startedDemand w := by
  have hmotor : (sendingNow (s.hearPeer n)).motorDemand = s.motorDemand := sendingNow_motorDemand (s := s.hearPeer n) h
  have hstarted : (sendingNow (s.hearPeer n)).startedDemand = s.startedDemand := sendingNow_startedDemand
  have hpeers : (sendingNow (s.hearPeer n)).peerSum = s.peerSum := hearPeer_peerSum n
  exact fitsNow_congr rfl hmotor hstarted hpeers rfl rfl

/-- R120: whether a station takes a grant or a HELD: track mode on, from its downstream station, for itself. -/
def FromDownstream (s : State) (f : Frame) : Prop :=
  (s.settings.trackMode = true ∧ f.byte 0 = s.settings.station) ∧ f.source = s.settings.downstream

theorem fromDownstream_iff {f : Frame} :
    ((s.hearPeer f.source).forTrack (f.byte 0) && f.source == (s.hearPeer f.source).settings.downstream) = true ↔
      FromDownstream s f := by
  rw [Bool.and_eq_true, forTrack_iff, beq_iff_eq]
  exact Iff.rfl

theorem exec_grant_taken {f : Frame} (h : Hears s .blockGrant f) (hf : FromDownstream s f) :
    exec (.blockGrantReceived f) s = event (fun _ => (s.hearPeer f.source).takeGrant f.source) s :=
  event_congr ((receive_heard h _).trans (if_pos (fromDownstream_iff.2 hf)))

theorem exec_grant_ignored {f : Frame} (h : Hears s .blockGrant f) (hf : ¬FromDownstream s f) :
    exec (.blockGrantReceived f) s = .next (s.hearPeer f.source) :=
  event_quiet ((receive_heard h _).trans (if_neg fun hx => hf (fromDownstream_iff.1 hx))) (hears_hearPeer h _)

theorem takeGrant_asked {source : Nat} (h : s.track.state = .askingAsked) : s.takeGrant source = s.enterSending := by
  unfold State.takeGrant
  rw [h]

theorem takeGrant_sending {source : Nat} (h : s.track.state = .sending) : s.takeGrant source = s := by
  unfold State.takeGrant
  rw [h]

/-- R124: a grant that the block does not expect. -/
theorem takeGrant_other {source : Nat} (hs : s.track.state ≠ .sending) (ha : s.track.state ≠ .askingAsked)
    (hq : s.line.queue.length < 8) : s.takeGrant source = answered s (.blockRelease source .cancel) := by
  rw [← handOver_answered (by simp [FrameBody.kind]) hq]
  unfold State.takeGrant
  split
  · rename_i h
    exact absurd h ha
  · rename_i h
    exact absurd h hs
  · rfl

/-! ## HELD (R122) -/

/-- R122: the next ask follows a full interval after a HELD. -/
theorem exec_blockHeldReceived {f : Frame} (h : Hears s .blockHeld f) :
    exec (.blockHeldReceived f) s =
      .next (if s.settings.trackMode = true ∧ f.byte 0 = s.settings.station ∧ f.source = s.settings.downstream ∧
          s.track.state = .askingAsked then
        { s.hearPeer f.source with track.retryTimer := some (s.now + 100) } else s.hearPeer f.source) := by
  refine event_quiet ((receive_heard h _).trans (if_congr ?_ rfl rfl)) ?_
  · rw [Bool.and_eq_true, fromDownstream_iff, beq_iff_eq, FromDownstream, and_assoc, and_assoc]
    exact Iff.rfl
  · have hu := hears_hearPeer h f.source
    split
    · exact ⟨hu.noWorks, hu.noCheck⟩
    · exact hu

/-! ## The release (R128) -/

/-- R120, R128: whether a station takes a release: RECEIVING in track mode, from its upstream station, for itself. -/
def TakesRelease (s : State) (f : Frame) : Prop :=
  (s.settings.trackMode = true ∧ f.byte 0 = s.settings.station) ∧ f.source = s.settings.upstream ∧
    s.track.state = .receiving

theorem hearRelease_iff {f : Frame} :
    ((s.hearPeer f.source).forTrack (f.byte 0) && f.source == (s.hearPeer f.source).settings.upstream &&
        (s.hearPeer f.source).track.state == .receiving) = true ↔ TakesRelease s f := by
  rw [Bool.and_eq_true, Bool.and_eq_true, forTrack_iff, beq_iff_eq, beq_iff_eq, and_assoc]
  exact Iff.rfl

theorem exec_release_taken {f : Frame} {outcome : ReleaseOutcome} (h : Hears s .blockRelease f) (hf : TakesRelease s f)
    (ho : releaseOutcomeOf (f.byte 1) = outcome) :
    exec (.blockReleaseReceived f) s = event (fun _ => (s.hearPeer f.source).takeRelease outcome) s := by
  subst ho
  exact event_congr ((receive_heard h _).trans (if_pos (hearRelease_iff.2 hf)))

theorem exec_release_ignored {f : Frame} (h : Hears s .blockRelease f) (hf : ¬TakesRelease s f ∨ f.byte 1 = 0) :
    exec (.blockReleaseReceived f) s = .next (s.hearPeer f.source) := by
  by_cases ht : TakesRelease s f
  · rw [exec_release_taken (outcome := .done) h ht (by rw [hf.resolve_left (not_not.2 ht)]; rfl)]
    exact event_quiet rfl (hears_hearPeer h _)
  · exact event_quiet ((receive_heard h _).trans (if_neg fun hx => ht (hearRelease_iff.1 hx))) (hears_hearPeer h _)

/-- R169: an outcome above 1 is read as FAILED. -/
theorem releaseOutcomeOf_failed : ∀ {n : Nat}, n ≠ 0 → n ≠ 1 → releaseOutcomeOf n = .failed
  | 0, h, _ => absurd rfl h
  | 1, _, h => absurd rfl h
  | _ + 2, _, _ => rfl

/-- R128: the loss of a handover while RECEIVING. -/
theorem trackLost_receiving {peer : Nat} (hs : s.track.state = .receiving) (hp : s.track.peer = some peer) :
    s.trackLost = ((s.recordFault .trackLost peer).endHandover .faulted).trackOutcome .failed := by
  unfold State.trackLost
  rw [hp, if_neg (by rw [hs]; decide)]
  rfl

/-- A record made just before the end of a handover outlives its event. -/
theorem endsHandover_mem_record {body : State → State} {state : TrackState} {out : AwaitOutcome} {kind : FaultKind}
    {detail : Byte} (hb : body s = (v.endHandover state).trackOutcome out) (hw : v.works = [])
    (ha : NobodyAwaits v .track) (hn : NothingElseWaits v 3) (hv : NewestRecord v.faults kind detail)
    (hk : kind ≠ .lineOverrun) (h : event body s = .next t) :
    ∃ x ∈ t.faults.records, x.kind = kind ∧ x.detail = detail := by
  obtain ⟨drives, lamps, share, hend, -⟩ := endHandover_frame state hn
  have hu : (v.endHandover state).trackOutcome out = forgetRequester (v.endHandover state) := by
    rw [trackOutcome_eq]
    refine completeAwaits_none out fun k => ?_
    rw [hend]
    exact ha k
  have hevent := event_ends (hb.trans hu) (settle_done 0 (by rw [hend]; exact hw)) (by decide)
  cases h.symm.trans hevent
  refine NewestRecord.mem_announce ?_ hk
  rw [hend]
  exact hv

/-- R128: a release other than DONE ends the handover, EMPTY for CANCEL and FAULTED with a record for FAILED. -/
theorem release_ends {f : Frame} {peer : Nat} (h : Hears s .blockRelease f) (hf : TakesRelease s f)
    (h0 : f.byte 1 ≠ 0) (ha : NobodyAwaits s .track) (hn : NothingElseWaits s 3) (hp : s.track.peer = some peer) :
    ∃ t, exec (.blockReleaseReceived f) s = .next t ∧
      t.track = endedTrack s.track (if f.byte 1 = 1 then .empty else .faulted) ∧
      (f.byte 1 ≠ 1 → ∃ x ∈ t.faults.records, x.kind = .trackLost ∧ x.detail = BitVec.ofNat 8 peer) ∧
      t.share.motorDemand = t.motorDemand := by
  generalize hu : s.hearPeer f.source = u
  have hw : u.works = [] := hu ▸ (hears_hearPeer h _).noWorks
  have htrack : u.track = s.track := by rw [← hu]; rfl
  have ha : NobodyAwaits u .track := by rw [← hu]; exact ha
  have hn : NothingElseWaits u 3 := by rw [← hu]; exact hn
  rw [← htrack]
  by_cases h1 : f.byte 1 = 1
  · rw [exec_release_taken (outcome := .cancel) h hf (by rw [h1]; rfl), hu, if_pos h1]
    obtain ⟨t, ht, hended, hdem, -⟩ := event_endsHandover (v := u) (state := .empty) (out := .done)
      (body := fun _ => u.takeRelease .cancel) (s := s) rfl hw ha hn
    exact ⟨t, ht, hended, fun hx => absurd h1 hx, hdem⟩
  · rw [exec_release_taken h hf (releaseOutcomeOf_failed h0 h1), hu, if_neg h1]
    have hlost := trackLost_receiving (s := u) (peer := peer) (by rw [htrack]; exact hf.2.2) (by rw [htrack]; exact hp)
    obtain ⟨t, ht, hended, hdem, -⟩ := event_endsHandover (v := u.recordFault .trackLost peer)
      (body := fun _ => u.takeRelease .failed) (s := s) hlost hw ha hn
    exact ⟨t, ht, hended, fun _ => endsHandover_mem_record (body := fun _ => u.takeRelease .failed) (s := s) hlost hw
      ha hn (newest_recordFault u .trackLost peer) (by decide) ht, hdem⟩

/-- Settles O50: a grant by the block's state and the start test of its segment, a HELD, and a release by its outcome. -/
theorem trackRepliesAreTaken : Obligations.TrackRepliesAreTaken := by
  intro s f u here w
  refine ⟨fun h => ⟨exec_grant_ignored h, fun hhere hd => ?_⟩, exec_blockHeldReceived, fun h => ⟨fun hno => ?_, ?_⟩⟩
  · have hu : Settled u := hears_hearPeer h _
    rw [exec_grant_taken h ⟨hhere, hd⟩]
    refine ⟨fun hs => event_quiet (takeGrant_sending (s := u) hs) hu, fun hs ha hq =>
      event_quiet (takeGrant_other (s := u) hs ha hq) ⟨hu.noWorks, hu.noCheck⟩, fun hs hb => ?_⟩
    intro sends
    have hbody : u.takeGrant f.source = (sendingNow u).segmentStartTest :=
      (takeGrant_asked (s := u) hs).trans (enterSending_eq (s := u) hb)
    have hstarted : (sendingNow u).startedDemand = s.startedDemand := sendingNow_startedDemand
    have hsends {running check : Bool} {drives : Vector Drive 4} {lamps : Vector Lamp 12} {share : Share}
        (ht : (sendingNow u).segmentStartTest =
          { sendingNow u with
            track.running := running, drives := drives, lamps := lamps, share := share, announceCheck := check })
        (hdem : share.startedDemand = (sendingNow u).segmentStartTest.startedDemand) :
        sends running (sendingNow u).segmentStartTest.announce := by
      refine ⟨event_ends hbody (settle_done 0 ?_) (by decide), ?_, fun x hx hask => ?_, ?_, ?_, ?_⟩
      · rw [ht]; exact hu.noWorks
      · rw [announce_track, ht]; rfl
      · have hx := (of_mem_announce_queue hx).resolve_right fun hl => by
          rw [isLoad_eq_false_of_isAsk hask] at hl
          cases hl
        rw [ht] at hx
        exact (mem_withdrawBlockAsk (s := u).1 hx).2 hask
      · rw [announce_share_startedDemand, announce_startedDemand, ← hdem, ht]
      · rw [announce_player, ht]; rfl
      · rw [announce_engine, ht]; rfl
    refine ⟨fun hfits => ?_, fun hover hnofit hadm => ?_⟩
    · obtain ⟨lamps, share, ht, hdem⟩ := segmentStartTest_runs (s := sendingNow u) (by rw [hstarted]; exact hfits)
      refine ⟨_, hsends (running := true) ht hdem, ?_⟩
      rw [announce_drives, ht]
      exact runSegment_drive _
    · obtain ⟨lamps, share, ht, hlist, hdem⟩ := segmentStartTest_waits (s := sendingNow u)
        (by rw [hstarted]; exact hover)
        (fun hx => hnofit ((sendingNow_fits f.source hs).1 hx)) hadm
      refine ⟨_, hsends (running := s.track.running) ht hdem, ?_⟩
      rw [announce_share_admissions, ht]
      exact hlist
  · exact exec_release_ignored h (hno.imp_left fun hn ⟨hhere, hup, hs⟩ => hn ⟨hhere, hup, hs⟩)
  · intro hhere hup hs hb0 hno hn peer hp
    exact release_ends h ⟨hhere, hup, hs⟩ hb0 hno hn hp

end Sys2Proof.Machine
end

section
/-! A RESUME frame (R72, R131, R151, R152). -/

namespace Sys2Proof.Machine

variable {s t u v : State}

/-! ## The frame at the Halt Logic -/

/-- The state with the joining-halt flag cleared while the joining timer runs (R152). -/
def flagCleared (s : State) : State :=
  { s with line.joiningHalt := if s.line.joiningTimer.isSome then false else s.line.joiningHalt }

theorem resumeFrame_eq :
    s.resumeFrame =
      if s.halted then (if s.stopLevel then (flagCleared s).sendHalt else (flagCleared s).leaveHalt)
      else flagCleared s := by
  have hflag : (if s.line.joiningTimer.isSome then { s with line.joiningHalt := false } else s) = flagCleared s := by
    unfold flagCleared
    split <;> rfl
  unfold State.resumeFrame
  rw [hflag]
  rfl

theorem exec_resumeReceived {f : Frame} (h : Hears s .resume f) :
    exec (.resumeReceived f) s = event (fun _ => (s.hearPeer f.source).resumeFrame) s :=
  event_congr (receive_heard h _)

/-! ## The handover goes on (R131) -/

/-- The block once its station has left HALTED with a handover under way, before the start test of its segment. -/
def resumedNow (s : State) : State :=
  { s with
    halt := none
    track.grantTimer :=
      if s.track.state = .receiving ∧ s.track.arriveSeen = true ∧ s.beamBroken .arrive = false then .stopped
      else .expiring (s.now + 2000)
    track.settle := s.track.settle.thaw s.now }

theorem leaveHalt_handover (h : s.inHandover = true) :
    s.leaveHalt = { (resumedNow s).segmentStartTest with announceCheck := true } := by
  have hresume : State.resumeTrack { s with halt := none } = (resumedNow s).segmentStartTest := by
    refine (if_pos h).trans ?_
    unfold resumedNow
    simp only [Bool.and_eq_true, beq_iff_eq, Bool.not_eq_true', and_assoc]
    rfl
  unfold State.leaveHalt
  rw [hresume]

theorem resumedNow_startedDemand : (resumedNow s).startedDemand = s.startedDemand := startedDemand_running rfl rfl rfl

/-- R65, R72: whether the segment's request fits is the same before and after the RESUME. -/
theorem resumedNow_fits {w : MilliWatt} (n : Nat) :
    FitsNow (resumedNow (flagCleared (s.hearPeer n))) w ↔ fitsWith s s.motorDemand s.startedDemand w := by
  have hmotor : (resumedNow (flagCleared (s.hearPeer n))).motorDemand = s.motorDemand :=
    motorDemand_claims rfl fun _ => rfl
  have hstarted : (resumedNow (flagCleared (s.hearPeer n))).startedDemand = s.startedDemand := resumedNow_startedDemand
  have hpeers : (resumedNow (flagCleared (s.hearPeer n))).peerSum = s.peerSum := hearPeer_peerSum n
  exact fitsNow_congr rfl hmotor hstarted hpeers rfl rfl

/-- Settles O52: the frame by whether the station is HALTED and a STOP input held, and the handover by the start test of
its segment. -/
theorem resumeFrameLeavesHalt : Obligations.ResumeFrameLeavesHalt := by
  intro s f h u w thawed resumed
  have hu : Settled u := ⟨h.ready.settled.noWorks, h.ready.settled.noCheck⟩
  have hbody : (s.hearPeer f.source).resumeFrame =
      if s.halted then (if s.stopLevel then u.sendHalt else u.leaveHalt) else u := resumeFrame_eq
  have hhalted (hh : s.halt ≠ none) : s.halted = true := Option.isSome_iff_ne_none.2 hh
  have hexec := exec_resumeReceived h
  refine ⟨fun hh => hexec.trans (event_quiet (hbody.trans (if_neg ?_)) hu), fun hh hstop hq => ?_,
    fun hh hstop => ?_⟩
  · unfold State.halted
    rw [hh]
    decide
  · rw [hhalted hh, hstop, if_pos rfl, if_pos rfl, sendHalt_room (s := u) hq] at hbody
    exact hexec.trans (event_quiet hbody ⟨hu.noWorks, hu.noCheck⟩)
  · rw [hhalted hh, hstop, if_pos rfl, if_neg Bool.false_ne_true] at hbody
    have hstarted : (resumedNow u).startedDemand = s.startedDemand := resumedNow_startedDemand
    have hthaw : s.track.settle.thaw s.now = thawed := by
      dsimp only [thawed]
      cases s.track.settle <;> rfl
    have hresumed {running check : Bool} {drives : Vector Drive 4} {lamps : Vector Lamp 12} {share : Share}
        (hhand : s.inHandover = true)
        (ht : (resumedNow u).segmentStartTest =
          { resumedNow u with
            track.running := running, drives := drives, lamps := lamps, share := share, announceCheck := check }) :
        resumed running (State.announce { (resumedNow u).segmentStartTest with announceCheck := true }) := by
      have hleave : u.leaveHalt = { (resumedNow u).segmentStartTest with announceCheck := true } :=
        leaveHalt_handover (s := u) hhand
      refine ⟨hexec.trans (event_ends (hbody.trans hleave) (settle_done 0 ?_) (by decide)), ?_, ?_, ?_, ?_, ?_⟩
      · rw [ht]; exact hu.noWorks
      · rw [announce_halt, ht]; rfl
      · rw [announce_track, ht, ← hthaw]; rfl
      · rw [announce_engine, ht]; rfl
      · rw [announce_player, ht]; rfl
      · rw [announce_inputs, ht]; rfl
    refine ⟨fun hno => ?_, fun hhand hfits => ?_, fun hhand hover hnofit hadm => ?_⟩
    · exact ⟨_, hexec.trans (event_ends (hbody.trans (leaveHalt_free (s := u) hno)) (settle_done 0 hu.noWorks)
        (by decide)), announce_halt _, announce_track _, announce_drives _, announce_lamps _, announce_engine _,
        announce_player _, announce_inputs _⟩
    · obtain ⟨lamps, share, ht, -⟩ := segmentStartTest_runs (s := resumedNow u) (by rw [hstarted]; exact hfits)
      exact ⟨_, hresumed (running := true) hhand ht⟩
    · obtain ⟨lamps, share, ht, hlist, -⟩ := segmentStartTest_waits (s := resumedNow u)
        (by rw [hstarted]; exact hover) (fun hx => hnofit ((resumedNow_fits f.source).1 hx)) hadm
      refine ⟨_, hresumed (running := s.track.running) hhand ht, ?_⟩
      rw [announce_share_admissions, ht]
      exact hlist

end Sys2Proof.Machine
end

section
/-! LOAD frames and the peer table (R61, R143 to R145, R152). -/

namespace Sys2Proof.Machine

variable {s t u v : State}

/-! ## The table and its sum (R61) -/

@[simp] theorem announce_line_peers (s : State) : s.announce.line.peers = s.line.peers := by
  obtain ⟨la, q, held, fl, h, -⟩ := announce_frame s; rw [h]
@[simp] theorem announce_line_joiningHalt (s : State) : s.announce.line.joiningHalt = s.line.joiningHalt := by
  obtain ⟨la, q, held, fl, h, -⟩ := announce_frame s; rw [h]
@[simp] theorem announce_line_joiningTimer (s : State) : s.announce.line.joiningTimer = s.line.joiningTimer := by
  obtain ⟨la, q, held, fl, h, -⟩ := announce_frame s; rw [h]
@[simp] theorem announce_share_peerSum (s : State) : s.announce.share.peerSum = s.share.peerSum := by
  obtain ⟨la, q, held, fl, h, -⟩ := announce_frame s; rw [h]

@[simp] theorem announce_peerSum (s : State) : s.announce.peerSum = s.peerSum := by
  unfold State.peerSum
  rw [announce_line_peers]

/-- The station with a peer table, its sum handed over, when no request waits: the lamp outputs, the share record and the
announcement check may follow. -/
structure Tabled (s : State) (peers : List Peer) (t : State) : Prop where
  frame : ∃ lamps share check,
    t = { s with line.peers := peers, lamps := lamps, share := share, announceCheck := check }
  admissions : t.share.admissions = s.share.admissions
  peerSum : t.share.peerSum = t.peerSum

namespace Tabled

variable {peers peers' : List Peer}

theorem linePeers (h : Tabled s peers t) : t.line.peers = peers := by obtain ⟨⟨_, _, _, rfl⟩, -⟩ := h; rfl
theorem engine (h : Tabled s peers t) : t.engine = s.engine := by obtain ⟨⟨_, _, _, rfl⟩, -⟩ := h; rfl
theorem drives (h : Tabled s peers t) : t.drives = s.drives := by obtain ⟨⟨_, _, _, rfl⟩, -⟩ := h; rfl
theorem works (h : Tabled s peers t) : t.works = s.works := by obtain ⟨⟨_, _, _, rfl⟩, -⟩ := h; rfl
theorem joiningHalt (h : Tabled s peers t) : t.line.joiningHalt = s.line.joiningHalt := by
  obtain ⟨⟨_, _, _, rfl⟩, -⟩ := h; rfl
theorem joiningTimer (h : Tabled s peers t) : t.line.joiningTimer = s.line.joiningTimer := by
  obtain ⟨⟨_, _, _, rfl⟩, -⟩ := h; rfl
theorem now (h : Tabled s peers t) : t.now = s.now := by obtain ⟨⟨_, _, _, rfl⟩, -⟩ := h; rfl

theorem nothingWaits (h : Tabled s peers t) (hn : NothingWaits s) : NothingWaits t :=
  hn.imp (fun hh => by obtain ⟨⟨_, _, _, rfl⟩, -⟩ := h; exact hh) h.admissions.trans

theorem trans (h : Tabled s peers t) (h' : Tabled t peers' u) : Tabled s peers' u := by
  obtain ⟨⟨_, _, _, rfl⟩, ha, -⟩ := h
  obtain ⟨⟨_, _, _, rfl⟩, ha', hp⟩ := h'
  exact ⟨⟨_, _, _, rfl⟩, ha'.trans ha, hp⟩

end Tabled

/-- R61, R63: a change of the table is handed over when it changes the sum. -/
theorem peersChanged_tabled (hn : NothingWaits s) (peers : List Peer) :
    Tabled s peers (s.setPeers peers).peersChanged := by
  unfold State.peersChanged
  split
  · rename_i hsum
    exact ⟨⟨s.lamps, s.share, s.announceCheck, rfl⟩, rfl, hsum.symm⟩
  · have hq : NothingWaits (s.setPeers peers) := hn
    obtain ⟨lamps, share, hrec, -, -, -, -, ha⟩ := recompute_frame hq
    have hpeers : (s.setPeers peers).recompute.peerSum = (s.setPeers peers).peerSum := by rw [hrec]; rfl
    refine ⟨⟨lamps, share, true, hrec⟩, by rw [hrec]; exact ha, ?_⟩
    rw [hpeers, recompute_share hq, State.formAllowance_share]

/-- What an event that leaves a table answers: that table, its sum, and nothing done to the scenes or the drives. -/
theorem event_tabled {body : State → State} {peers : List Peer} (hb : body s = t) (h : Tabled u peers t)
    (hw : u.works = []) :
    ∃ t', event body s = .next t' ∧ t'.line.peers = peers ∧ t'.share.peerSum = t'.peerSum ∧ t'.engine = u.engine ∧
      t'.drives = u.drives := by
  refine ⟨_, event_ends hb (settle_done 0 (h.works.trans hw)) (by decide), ?_, ?_, ?_, ?_⟩
  · rw [announce_line_peers, h.linePeers]
  · rw [announce_share_peerSum, announce_peerSum, h.peerSum]
  · rw [announce_engine, h.engine]
  · rw [announce_drives, h.drives]

/-! ## One station's entry -/

/-- The entries of the other stations. -/
def otherPeers (peers : List Peer) (n : Nat) : List Peer := peers.filter fun p => p.station != n

theorem hasPeer_iff {n : Nat} : s.hasPeer n = true ↔ ∃ p ∈ s.line.peers, p.station = n := by
  unfold State.hasPeer
  simp only [List.any_eq_true, beq_iff_eq]

/-- A station with no entry has none to remove. -/
theorem otherPeers_none {n : Nat} (h : s.hasPeer n = false) : otherPeers s.line.peers n = s.line.peers := by
  refine List.filter_eq_self.2 fun p hp => bne_iff_ne.2 fun hn => ?_
  rw [hasPeer_iff.2 ⟨p, hp, hn⟩] at h
  cases h

/-- A change of one station's entry, its number kept, leaves the entries of the others. -/
theorem otherPeers_map {n : Nat} (change : Peer → Peer) (hc : ∀ p, (change p).station = p.station)
    (peers : List Peer) : otherPeers (peers.map fun p => if p.station = n then change p else p) n = otherPeers peers n := by
  unfold otherPeers
  induction peers with
  | nil => rfl
  | cons p ps ih =>
    rw [List.map_cons, List.filter_cons, List.filter_cons, ih]
    by_cases hp : p.station = n
    · rw [if_pos hp, if_neg (by simp [hc, hp]), if_neg (by simp [hp])]
    · rw [if_neg hp]

theorem hearPeer_others (n : Nat) : otherPeers (s.hearPeer n).line.peers n = otherPeers s.line.peers n :=
  otherPeers_map (fun p => { p with lastHeard := s.now }) (fun _ => rfl) _

theorem hearPeer_hasPeer (n : Nat) : (s.hearPeer n).hasPeer n = s.hasPeer n := by
  unfold State.hasPeer State.hearPeer
  rw [setPeers_line_peers, List.any_map]
  refine congrArg (List.any _) (funext fun p => ?_)
  rw [Function.comp_apply]
  split <;> rfl

/-- R144: a frame of a station with no entry refreshes none. -/
theorem hearPeer_unknown {n : Nat} (h : s.hasPeer n = false) : s.hearPeer n = s := by
  have hsame : (s.line.peers.map fun p => if p.station = n then { p with lastHeard := s.now } else p) = s.line.peers := by
    refine (List.map_congr_left fun p hp => if_neg fun hn => ?_).trans (List.map_id _)
    rw [hasPeer_iff.2 ⟨p, hp, hn⟩] at h
    cases h
  unfold State.hearPeer
  rw [hsame]
  rfl

/-! ## The entry heard longest ago (R143) -/

/-- The place of an entry among those that may give way: by when it was heard, then by its station's number. -/
def Peer.place (p : Peer) : Nat ×ₗ Nat := toLex (p.lastHeard, p.station)

theorem place_le_iff {p q : Peer} : p.place ≤ q.place ↔
    p.lastHeard < q.lastHeard ∨ (p.lastHeard = q.lastHeard ∧ p.station ≤ q.station) := Prod.Lex.toLex_le_toLex

theorem place_lt_iff {p q : Peer} : p.place < q.place ↔
    p.lastHeard < q.lastHeard ∨ (p.lastHeard = q.lastHeard ∧ p.station < q.station) := Prod.Lex.toLex_lt_toLex

theorem place_eq_iff {p q : Peer} : p.place = q.place ↔ p.lastHeard = q.lastHeard ∧ p.station = q.station :=
  toLex_inj.trans Prod.mk_inj

theorem oldestPeer_eq_none : ∀ {ps : List Peer}, oldestPeer ps = none → ps = []
  | [], _ => rfl
  | p :: ps, h => by
    unfold oldestPeer at h
    split at h
    · cases h
    · split at h <;> cases h

theorem oldestPeer_place_le : ∀ {ps : List Peer} {p : Peer}, oldestPeer ps = some p → ∀ q ∈ ps, p.place ≤ q.place
  | x :: ps, p, h, q, hq => by
    unfold oldestPeer at h
    split at h
    · rename_i hnone
      rw [oldestPeer_eq_none hnone, List.mem_singleton] at hq
      obtain rfl : x = p := Option.some.inj h
      rw [hq]
    · rename_i y hy
      have hrest := oldestPeer_place_le hy
      split at h
      · rename_i hx
        obtain rfl : x = p := Option.some.inj h
        exact (List.mem_cons.1 hq).elim (fun h => h ▸ le_rfl) fun h =>
          (place_lt_iff.2 hx).le.trans (hrest q h)
      · rename_i hx
        obtain rfl : y = p := Option.some.inj h
        exact (List.mem_cons.1 hq).elim (fun h => h ▸ not_lt.1 fun hl => hx (place_lt_iff.1 hl)) (hrest q)

/-! ## Taking a LOAD (R143) -/

section

variable {n demand group : Nat}

/-- The entry that a LOAD taken now makes. -/
def newPeer (s : State) (n demand : Nat) : Peer := ⟨n, demand, s.now⟩

/-- The table once a LOAD has updated its station's entry. -/
def updatedPeers (s : State) (n demand : Nat) : List Peer :=
  s.line.peers.map fun p => if p.station = n then { p with demand := demand, lastHeard := s.now } else p

theorem updatedPeers_others : otherPeers (updatedPeers s n demand) n = otherPeers s.line.peers n :=
  otherPeers_map (fun p => { p with demand := demand, lastHeard := s.now }) (fun _ => rfl) _

theorem newPeer_mem_updatedPeers (h : s.hasPeer n = true) : newPeer s n demand ∈ updatedPeers s n demand := by
  obtain ⟨p, hp, hn⟩ := hasPeer_iff.1 h
  refine List.mem_map.2 ⟨p, hp, ?_⟩
  rw [if_pos hn, hn]
  rfl

theorem removePeer_tabled (hn : NothingWaits s) : Tabled s (otherPeers s.line.peers n) (s.removePeer n) :=
  peersChanged_tabled hn _

theorem addPeer_tabled (hn : NothingWaits s) : Tabled s (s.line.peers ++ [newPeer s n demand]) (s.addPeer n demand) :=
  peersChanged_tabled hn _

theorem takeLoad_known (hw : NothingWaits s) (hg : group = s.settings.group) (hp : s.hasPeer n = true) :
    Tabled s (updatedPeers s n demand) (s.takeLoad n demand group) := by
  unfold State.takeLoad
  rw [if_pos hg, if_pos hp]
  exact peersChanged_tabled hw _

theorem takeLoad_new (hw : NothingWaits s) (hg : group = s.settings.group) (hp : s.hasPeer n = false)
    (hlen : s.line.peers.length < 32) :
    Tabled s (s.line.peers ++ [newPeer s n demand]) (s.takeLoad n demand group) := by
  unfold State.takeLoad
  rw [if_pos hg, if_neg (by rw [hp]; decide), if_pos hlen]
  exact addPeer_tabled hw

theorem takeLoad_full (hg : group = s.settings.group) (hp : s.hasPeer n = false) (hlen : ¬s.line.peers.length < 32) :
    s.takeLoad n demand group = s.addToFullTable n demand := by
  unfold State.takeLoad
  rw [if_pos hg, if_neg (by rw [hp]; decide), if_neg hlen]

theorem takeLoad_foreign (hg : group ≠ s.settings.group) :
    s.takeLoad n demand group = if s.hasPeer n then s.removePeer n else s := if_neg hg

/-- R143: a table of which no entry has been silent for 200 ticks takes no other: PEER_FULL, once for each station. -/
theorem addToFullTable_fresh (hne : s.line.peers ≠ []) (h : ∀ p ∈ s.line.peers, s.now ≤ p.lastHeard + 200) :
    s.addToFullTable n demand =
      if n ∈ s.line.peerFull then s
      else State.recordFault { s with line.peerFull := n :: s.line.peerFull } .peerFull n := by
  unfold State.addToFullTable
  split
  · rename_i hnone
    exact absurd (oldestPeer_eq_none hnone) hne
  · rename_i p hp
    rw [if_neg (Nat.not_lt.2 (h p (oldestPeer_mem hp)))]
    exact if_congr List.contains_iff_mem rfl rfl

/-- R143: the entry that gives way before every other is evicted when it has been silent for 200 ticks. -/
theorem addToFullTable_evicts {p : Peer} (hw : NothingWaits s) (hp : p ∈ s.line.peers)
    (hfirst : ∀ q ∈ s.line.peers, p.place ≤ q.place) (hold : p.lastHeard + 200 < s.now) :
    Tabled s (otherPeers s.line.peers p.station ++ [newPeer s n demand]) (s.addToFullTable n demand) := by
  unfold State.addToFullTable
  split
  · rename_i hnone
    rw [oldestPeer_eq_none hnone] at hp
    cases hp
  · rename_i q hq
    obtain ⟨hlast, hstation⟩ := place_eq_iff.1 ((oldestPeer_place_le hq p hp).antisymm (hfirst q (oldestPeer_mem hq)))
    rw [if_pos (by rw [hlast]; exact hold), hstation]
    have hremoved := removePeer_tabled (n := p.station) hw
    have hadded := addPeer_tabled (n := n) (demand := demand) (hremoved.nothingWaits hw)
    rw [hremoved.linePeers, newPeer, hremoved.now] at hadded
    exact hremoved.trans hadded

/-- A LOAD leaves a table with its sum, or at most a PEER_FULL record. -/
theorem takeLoad_cases (hw : NothingWaits s) (n demand group : Nat) :
    (∃ peers, Tabled s peers (s.takeLoad n demand group)) ∨
      ∃ faults peerFull, s.takeLoad n demand group = { s with faults := faults, line.peerFull := peerFull } := by
  by_cases hg : group = s.settings.group
  · cases hp : s.hasPeer n with
    | true => exact .inl ⟨_, takeLoad_known hw hg hp⟩
    | false =>
      by_cases hlen : s.line.peers.length < 32
      · exact .inl ⟨_, takeLoad_new hw hg hp hlen⟩
      · rw [takeLoad_full hg hp hlen]
        unfold State.addToFullTable
        split
        · exact .inr ⟨s.faults, s.line.peerFull, rfl⟩
        · split
          · rename_i p _ _
            have hremoved := removePeer_tabled (n := p.station) hw
            exact .inl ⟨_, hremoved.trans (addPeer_tabled (hremoved.nothingWaits hw))⟩
          · split
            · exact .inr ⟨s.faults, s.line.peerFull, rfl⟩
            · exact .inr ⟨_, _, rfl⟩
  · rw [takeLoad_foreign hg]
    split
    · exact .inl ⟨_, removePeer_tabled hw⟩
    · exact .inr ⟨s.faults, s.line.peerFull, rfl⟩

end

/-! ## The frame and the age (R144, R145, R152) -/

/-- The station with the halted flag of a LOAD noted while the joining timer runs (R152). -/
def joiningNoted (s : State) (f : Frame) : State :=
  { s with line.joiningHalt := s.line.joiningHalt || (s.line.joiningTimer.isSome && decide (f.byte 3 % 2 = 1)) }

/-- The station as it takes a LOAD: the sender's entry refreshed too (R144). -/
def loadHeard (s : State) (f : Frame) : State := (joiningNoted s f).hearPeer f.source

theorem exec_loadReceived {f : Frame} (h : Hears s .load f) :
    exec (.loadReceived f) s =
      event (fun _ => (loadHeard s f).takeLoad f.source (f.word 0) (f.byte 2 % 8)) s := by
  have hflag (u : State) (halted : Bool) :
      (if u.line.joiningTimer.isSome then { u with line.joiningHalt := u.line.joiningHalt || halted } else u) =
        { u with line.joiningHalt := u.line.joiningHalt || (u.line.joiningTimer.isSome && halted) } := by
    cases u.line.joiningTimer with
    | none => simp
    | some e => simp
  refine event_congr ((receive_heard h _).trans ?_)
  exact congrArg (fun u : State => u.takeLoad f.source (f.word 0) (f.byte 2 % 8)) (hflag _ _)

section

variable {f : Frame}

/-- R144: a LOAD of a station with no entry refreshes none. -/
theorem loadHeard_unknown (hp : s.hasPeer f.source = false) : loadHeard s f = joiningNoted s f :=
  hearPeer_unknown (s := joiningNoted s f) hp

variable (h : Hears s .load f) (hw : NothingWaits s)
include h

theorem exec_load_tabled {peers : List Peer}
    (ht : Tabled (loadHeard s f) peers ((loadHeard s f).takeLoad f.source (f.word 0) (f.byte 2 % 8))) :
    ∃ t, exec (.loadReceived f) s = .next t ∧ t.line.peers = peers ∧ t.share.peerSum = t.peerSum ∧
      t.engine = s.engine ∧ t.drives = s.drives := by
  rw [exec_loadReceived h]
  exact event_tabled (u := loadHeard s f)
    (body := fun _ => (loadHeard s f).takeLoad f.source (f.word 0) (f.byte 2 % 8)) rfl ht h.ready.settled.noWorks

theorem exec_load_quiet {u : State} (hu : (loadHeard s f).takeLoad f.source (f.word 0) (f.byte 2 % 8) = u)
    (hset : Settled u) : exec (.loadReceived f) s = .next u :=
  (exec_loadReceived h).trans (event_quiet hu hset)

theorem settled_joiningNoted : Settled (joiningNoted s f) := ⟨h.ready.settled.noWorks, h.ready.settled.noCheck⟩

/-- R143: a LOAD of a station that finds the table full and every entry fresh. -/
theorem load_refused (hg : f.byte 2 % 8 = s.settings.group) (hp : s.hasPeer f.source = false)
    (hlen : s.line.peers.length = 32) (hfresh : ∀ p ∈ s.line.peers, s.now ≤ p.lastHeard + 200) :
    exec (.loadReceived f) s =
      .next (if f.source ∈ s.line.peerFull then joiningNoted s f
        else State.recordFault { joiningNoted s f with line.peerFull := f.source :: s.line.peerFull } .peerFull
          f.source) := by
  have hu := settled_joiningNoted h
  have hne : (joiningNoted s f).line.peers ≠ [] := List.ne_nil_of_length_eq_add_one hlen
  refine exec_load_quiet h ?_ (by split <;> exact ⟨hu.noWorks, hu.noCheck⟩)
  rw [loadHeard_unknown hp, takeLoad_full (s := joiningNoted s f) hg hp (Nat.not_lt.2 hlen.ge)]
  exact addToFullTable_fresh hne hfresh

include hw

/-- R145, R152: any LOAD notes its halted flag while the joining timer runs. -/
theorem load_notes_halt : ∃ t, exec (.loadReceived f) s = .next t ∧
    t.line.joiningHalt = (joiningNoted s f).line.joiningHalt ∧ t.line.joiningTimer = s.line.joiningTimer := by
  generalize ht : (loadHeard s f).takeLoad f.source (f.word 0) (f.byte 2 % 8) = t
  have hkept : t.works = s.works ∧ t.line.joiningHalt = (joiningNoted s f).line.joiningHalt ∧
      t.line.joiningTimer = s.line.joiningTimer := by
    have hcases := takeLoad_cases (s := loadHeard s f) hw f.source (f.word 0) (f.byte 2 % 8)
    rw [ht] at hcases
    obtain ⟨peers, ht⟩ | ⟨faults, full, rfl⟩ := hcases
    · exact ⟨ht.works, ht.joiningHalt, ht.joiningTimer⟩
    · exact ⟨rfl, rfl, rfl⟩
  obtain ⟨hworks, hhalt, htimer⟩ := hkept
  exact ⟨_, (exec_loadReceived h).trans (event_ends ht (settle_done 0 (hworks.trans h.ready.settled.noWorks)) (by decide)),
    (announce_line_joiningHalt _).trans hhalt, (announce_line_joiningTimer _).trans htimer⟩

/-- R143: a LOAD of the own group, of a station with an entry or with room for one. -/
theorem load_enters (hg : f.byte 2 % 8 = s.settings.group)
    (hroom : s.hasPeer f.source = true ∨ s.line.peers.length < 32) :
    ∃ t, exec (.loadReceived f) s = .next t ∧ newPeer s f.source (f.word 0) ∈ t.line.peers ∧
      otherPeers t.line.peers f.source = otherPeers s.line.peers f.source ∧ t.share.peerSum = t.peerSum ∧
      t.engine = s.engine ∧ t.drives = s.drives := by
  have hothers : otherPeers (loadHeard s f).line.peers f.source = otherPeers s.line.peers f.source := hearPeer_others _
  have hhas : (loadHeard s f).hasPeer f.source = s.hasPeer f.source := hearPeer_hasPeer _
  cases hp : s.hasPeer f.source with
  | true =>
    obtain ⟨t, ht, hpeers, hrest⟩ := exec_load_tabled h (takeLoad_known (s := loadHeard s f) hw hg (hhas.trans hp))
    refine ⟨t, ht, ?_, ?_, hrest⟩
    · rw [hpeers]
      exact newPeer_mem_updatedPeers (hhas.trans hp)
    · rw [hpeers]
      exact updatedPeers_others.trans hothers
  | false =>
    have hlen : s.line.peers.length < 32 := hroom.resolve_left (by rw [hp]; decide)
    obtain ⟨t, ht, hpeers, hrest⟩ := exec_load_tabled h
      (takeLoad_new (s := loadHeard s f) hw hg (hhas.trans hp) (by rw [loadHeard_unknown hp]; exact hlen))
    refine ⟨t, ht, ?_, ?_, hrest⟩
    · rw [hpeers]
      exact List.mem_append_right _ (List.mem_singleton_self _)
    · rw [hpeers, otherPeers, List.filter_append]
      exact (congrArg (· ++ _) hothers).trans (by simp [newPeer])

/-- R143: a LOAD of a station that takes the place of the entry heard longest ago. -/
theorem load_evicts {p : Peer} (hg : f.byte 2 % 8 = s.settings.group) (hp : s.hasPeer f.source = false)
    (hlen : s.line.peers.length = 32) (hmem : p ∈ s.line.peers) (hfirst : ∀ q ∈ s.line.peers, p.place ≤ q.place)
    (hold : p.lastHeard + 200 < s.now) :
    ∃ t, exec (.loadReceived f) s = .next t ∧
      t.line.peers = otherPeers s.line.peers p.station ++ [newPeer s f.source (f.word 0)] ∧
      t.share.peerSum = t.peerSum ∧ t.engine = s.engine ∧ t.drives = s.drives := by
  refine exec_load_tabled h ?_
  rw [loadHeard_unknown hp, takeLoad_full (s := joiningNoted s f) hg hp (Nat.not_lt.2 hlen.ge)]
  exact addToFullTable_evicts (s := joiningNoted s f) hw hmem hfirst hold

/-- R143: a LOAD of another group. -/
theorem load_foreign (hg : f.byte 2 % 8 ≠ s.settings.group) :
    ∃ t, exec (.loadReceived f) s = .next t ∧ t.line.peers = otherPeers s.line.peers f.source ∧
      (s.hasPeer f.source = true → t.share.peerSum = t.peerSum) ∧ t.engine = s.engine ∧ t.drives = s.drives := by
  have hhas : (loadHeard s f).hasPeer f.source = s.hasPeer f.source := hearPeer_hasPeer _
  have hforeign := takeLoad_foreign (s := loadHeard s f) (n := f.source) (demand := f.word 0) hg
  rw [hhas] at hforeign
  cases hp : s.hasPeer f.source with
  | true =>
    rw [hp, if_pos rfl] at hforeign
    have hremoved := removePeer_tabled (s := loadHeard s f) (n := f.source) hw
    rw [← hforeign] at hremoved
    obtain ⟨t, ht, hpeers, hsum, hrest⟩ := exec_load_tabled h hremoved
    exact ⟨t, ht, hpeers.trans (hearPeer_others _), fun _ => hsum, hrest⟩
  | false =>
    rw [hp, if_neg Bool.false_ne_true] at hforeign
    exact ⟨_, exec_load_quiet h (hforeign.trans (loadHeard_unknown hp)) (settled_joiningNoted h),
      (otherPeers_none hp).symm, (fun hx => by cases hx), rfl, rfl⟩

end

theorem exec_peerAgeOut {n : Nat} {p : Peer} (hr : Ready s) (hp : p ∈ s.line.peers) (hn : p.station = n)
    (hage : p.lastHeard + 600 ≤ s.now) : exec (.peerAgeOut n) s = event (fun t => t.removePeer n) s := by
  refine if_pos ?_
  unfold State.peerDue
  rw [inShow_of_ready hr, Bool.true_and, List.any_eq_true]
  exact ⟨p, hp, by simp [hn, hage]⟩

/-- Settles O54: a LOAD by its group, its sender's entry and the room in the table, and the age of an entry. -/
theorem loadsKeepPeerTable : Obligations.LoadsKeepPeerTable := by
  intro s f n others u
  refine ⟨fun h hw => ⟨load_notes_halt h hw, fun hg hroom => ?_, fun hg hp hlen hfresh => ?_,
    fun p hg hp hlen hmem hfirst hold => ?_, load_foreign h hw⟩, fun m p hr hw hp hm hage => ?_⟩
  · obtain ⟨t, ht, hmem, hrest⟩ := load_enters h hw hg hroom
    exact ⟨t, ht, ⟨_, hmem, rfl⟩, hrest⟩
  · rw [show u.hearPeer n = u from hearPeer_unknown (s := u) hp]
    exact load_refused h hg hp hlen hfresh
  · exact load_evicts h hw hg hp hlen hmem (fun q hq => place_le_iff.2 (hfirst q hq)) hold
  · rw [exec_peerAgeOut hr hp hm hage]
    exact event_tabled rfl (removePeer_tabled hw) hr.settled.noWorks

end Sys2Proof.Machine
end

section
/-! The narration claims (R15, R83, R84, R90, R92, R93): reports, the start check, the back-off and the voice table, each
said once. -/

namespace Sys2Proof.Machine

variable {s t u : State} {e : SayEntry}

/-! ## Reports (R10, R15, R19) -/

/-- A report of a SAY that is not over yet completes no AWAIT: it changes the slots alone. -/
theorem reportSay_slots {hd : Handle} (h : hd.outcome? = none) :
    ∃ slots, s.reportSay e hd = { s with engine.slots := slots } := by
  unfold State.reportSay
  simp only [h]
  split
  · split
    · exact ⟨_, rfl⟩
    · exact ⟨s.engine.slots, rfl⟩
  · exact ⟨s.engine.slots, rfl⟩

/-! ## The start check (R90) -/

theorem allQuiet_iff : s.allQuiet = true ↔ ∀ v ∈ s.player.voices, v.talking = false := by
  simp [State.allQuiet]

/-- One of the four conditions of a claim is not met. -/
def StartUnmet (s : State) : Prop :=
  s.player.queue = [] ∨ s.player.state ≠ .idle ∨ s.line.state ≠ .active ∨ ∃ v ∈ s.player.voices, v.talking = true

theorem checkStart_unmet (h : StartUnmet s) : s.checkStart = s := by
  unfold State.checkStart
  split
  · rfl
  · rename_i hq
    refine if_neg fun hm => ?_
    unfold State.mayStart at hm
    simp only [Bool.and_eq_true, beq_iff_eq, allQuiet_iff] at hm
    obtain ⟨⟨hidle, hactive⟩, hquiet⟩ := hm
    rcases h with h | h | h | ⟨v, hv, ht⟩
    · rw [hq] at h
      cases h
    · exact h hidle
    · exact h hactive
    · rw [hquiet v hv] at ht
      cases ht

theorem durationOf_eq {number : Byte} {clip : Clip} (h : s.clip? number = some clip) :
    s.durationOf number = (clip.length + 159) / 160 := by
  unfold State.durationOf
  rw [h]
  rfl

/-- The player once it has taken a request off its queue for a claim. -/
def claimed (p : Player) (e : SayEntry) (rest : List SayEntry) : Player :=
  { p with
    queue := rest, current := some e, state := .settling, intentSent := false, windowEnd := none, claim := p.claim + 1
    bounced := false }

theorem checkStart_claims {rest : List SayEntry} (hq : s.player.queue = e :: rest) (hi : s.player.state = .idle)
    (hl : s.line.state = .active) (hv : ∀ v ∈ s.player.voices, v.talking = false) (hroom : s.line.queue.length < 8) :
    ∃ slots, s.checkStart =
      { s with
        player := claimed s.player e rest, engine.slots := slots
        line.queue :=
          insertTx ⟨.talkIntent e.priority ((s.durationOf e.clip + 9) / 10), s.now, false, s.player.claim + 1⟩
            s.line.queue } := by
  have hstart : s.mayStart = true := by
    unfold State.mayStart
    rw [hi, hl, allQuiet_iff.2 hv]
    rfl
  obtain ⟨slots, hrep⟩ := reportSay_slots (s := { s with player := claimed s.player e rest }) (e := e) (hd := .settling) rfl
  refine ⟨slots, ?_⟩
  unfold State.checkStart
  rw [hq]
  refine (if_pos hstart).trans ?_
  show State.handOverFor (State.reportSay { s with player := claimed s.player e rest } e .settling) _ _ = _
  rw [hrep]
  exact handOverFor_room (show FrameKind.talkIntent ≠ .load by decide) hroom

/-! ## The back-off (R93) -/

/-- The request of the claim can return to the queue as it is: it is not out of patience, none of its slot and clip is
queued, and there is room. -/
structure Returnable (s : State) (e : SayEntry) : Prop where
  current : s.player.current = some e
  patient : s.now < e.patience
  apart : ∀ x ∈ s.player.queue, x.slot ≠ e.slot ∨ x.clip ≠ e.clip
  room : s.player.queue.length < 8

theorem returnSay_joins (hp : s.now < e.patience) (hx : ∀ x ∈ s.player.queue, x.slot ≠ e.slot ∨ x.clip ≠ e.clip)
    (hq : s.player.queue.length < 8) :
    ∃ slots, s.returnSay e = { s with player.queue := insertSay e s.player.queue, engine.slots := slots } := by
  have hlen : (insertSay e s.player.queue).length ≤ 8 := by
    rw [insertSay_length]
    exact hq
  unfold State.returnSay
  rw [if_neg (Nat.not_le.2 hp), find_isFor_none hx]
  simp only [if_pos hlen]
  exact reportSay_slots rfl

theorem endClaim_returns (h : Returnable s e) :
    ∃ slots, s.endClaim = { s with player := backedOff s.player e, engine.slots := slots } := by
  unfold State.endClaim
  rw [h.current]
  exact returnSay_joins (s :=
    { s with player.state := .idle, player.current := none, player.intentSent := false, player.windowEnd := none })
    h.patient h.apart h.room

/-- The transmit queue once the TALK_INTENT of the claim is taken back: withdrawn while it waits, followed by a TALK_END
otherwise. -/
def recalled (s : State) : List TxEntry :=
  if s.player.intentSent = false ∧ s.intentInTransmission s.player.claim = false then
    s.line.queue.filter fun x => !(x.isIntent && x.claim == s.player.claim && !x.inTransmission)
  else insertTx ⟨.talkEnd, s.now, false, 0⟩ s.line.queue

/-- A back-off while no new claim can follow. -/
theorem backOff_returns (h : Returnable s e)
    (hroom : s.player.intentSent = true ∨ s.intentInTransmission s.player.claim = true → s.line.queue.length < 8)
    (hm : s.line.state ≠ .active ∨ ∃ v ∈ s.player.voices, v.talking = true) :
    ∃ slots, s.backOff =
      { s with player := backedOff s.player e, line.queue := recalled s, engine.slots := slots } := by
  have hrecall : (if s.player.intentSent = false ∧ s.intentInTransmission s.player.claim = false then
      s.withdrawIntent s.player.claim else s.handOver .talkEnd) = s.setTxQueue (recalled s) := by
    unfold recalled
    split
    · rfl
    · rename_i hn
      refine handOver_room (by decide) (hroom ?_)
      rwa [not_and_or, Bool.not_eq_false, Bool.not_eq_false] at hn
  obtain ⟨slots, hend⟩ := endClaim_returns (s := s.setTxQueue (recalled s)) ⟨h.current, h.patient, h.apart, h.room⟩
  refine ⟨slots, ?_⟩
  unfold State.backOff
  simp only [hrecall, hend]
  exact checkStart_unmet (.inr (.inr hm))

/-! ## The voice table (R82 to R84) -/

theorem hears_iff {n : Nat} : s.hears n = true ↔ ∃ v ∈ s.player.voices, v.station = n := by
  simp [State.hears]

/-- A station with no entry gets none. -/
theorem setVoice_unlisted {n : Nat} (h : ¬∃ v ∈ s.player.voices, v.station = n) (change : VoiceEntry → VoiceEntry) :
    s.setVoice n change = s := by
  have hmap : (s.player.voices.map fun v => if v.station = n then change v else v) = s.player.voices :=
    (List.map_congr_left fun v hv => if_neg fun hn => h ⟨v, hv, hn⟩).trans (List.map_id _)
  unfold State.setVoice
  rw [hmap]

/-- An entry changed to TALKING. -/
theorem talks_setVoice {n : Nat} {change : VoiceEntry → VoiceEntry} (h : ∃ v ∈ s.player.voices, v.station = n)
    (hc : ∀ v, (change v).talking = true) : ∃ v ∈ (s.setVoice n change).player.voices, v.talking = true := by
  obtain ⟨v, hv, hn⟩ := h
  exact ⟨_, List.mem_map.2 ⟨v, hv, if_pos hn⟩, hc v⟩

/-- Another station's entry stays TALKING. -/
theorem talks_setVoice_other {n : Nat} (change : VoiceEntry → VoiceEntry)
    (h : ∃ v ∈ s.player.voices, v.station ≠ n ∧ v.talking = true) :
    ∃ v ∈ (s.setVoice n change).player.voices, v.talking = true := by
  obtain ⟨v, hv, hn, ht⟩ := h
  exact ⟨v, List.mem_map.2 ⟨v, hv, if_neg hn⟩, ht⟩

/-! ## TALK frames -/

section

variable {f : Frame}

theorem exec_talkIntentReceived (h : Hears s .talkIntent f) :
    exec (.talkIntentReceived f) s =
      event (fun _ => State.hearIntent f.source (f.byte 0 % 8) (f.word 1) (s.hearPeer f.source)) s :=
  event_congr (receive_heard h _)

theorem exec_talkBusyReceived (h : Hears s .talkBusy f) :
    exec (.talkBusyReceived f) s =
      event (fun _ => State.hearBusy f.source (f.byte 0) (f.word 2) (s.hearPeer f.source)) s :=
  event_congr (receive_heard h _)

theorem exec_talkEndReceived (h : Hears s .talkEnd f) :
    exec (.talkEndReceived f) s = event (fun _ => State.hearEnd f.source (s.hearPeer f.source)) s :=
  event_congr (receive_heard h _)

end

theorem namesStation_iff {n : Nat} : namesStation n = true ↔ 1 ≤ n ∧ n ≤ 62 := by simp [namesStation]

end Sys2Proof.Machine
end

section
/-! TALK frames (R83, R84, R92, R93, R96, R169): what each notes in the voice table, and what it does to a claim. -/

namespace Sys2Proof.Machine

variable {s t u : State} {e : SayEntry} {f : Frame}

/-! ## Frames heard, by the player's state and by the destination -/

section

variable {source dest priority time : Nat}

theorem hearIntent_idle (h : s.player.state = .idle) :
    State.hearIntent source priority time s = s.setVoice source (.talkUntil (s.now + 10 * time + 200)) := by
  unfold State.hearIntent
  rw [h]

theorem hearIntent_yields (h : s.player.state = .settling) (hl : ∃ v ∈ s.player.voices, v.station = source)
    (ho : s.outranked source priority = true) :
    State.hearIntent source priority time s =
      (s.setVoice source (.talkUntil (s.now + 10 * time + 200))).backOff := by
  unfold State.hearIntent
  rw [h]
  exact if_pos (by rw [hears_iff.2 hl, ho]; rfl)

theorem hearIntent_goesOn (h : s.player.state = .settling)
    (hn : ¬(∃ v ∈ s.player.voices, v.station = source) ∨ ¬s.outranked source priority = true) :
    State.hearIntent source priority time s = s.setVoice source (.talkUntil (s.now + 10 * time + 200)) := by
  unfold State.hearIntent
  rw [h]
  refine if_neg ?_
  rwa [Bool.and_eq_true, hears_iff, not_and_or]

theorem hearIntent_sounding (h : s.player.state = .playing ∨ s.player.state = .fadingOut) :
    State.hearIntent source priority time s =
      (s.setVoice source (.talkUntil (s.now + 10 * time + 200))).handOver
        (.talkBusy source s.currentPriority s.remainingUnits) := by
  unfold State.hearIntent
  rcases h with h | h <;> rw [h]

theorem hearBusy_nobody (h : dest = 0 ∨ 62 < dest) : State.hearBusy source dest time s = s := by
  have hn : namesStation dest = false := by
    rw [Bool.eq_false_iff, Ne, namesStation_iff]
    omega
  unfold State.hearBusy
  rw [hn]
  rfl

theorem hearBusy_yields (h1 : 1 ≤ dest) (h62 : dest ≤ 62) (hd : dest = s.settings.station)
    (h : s.player.state = .settling) (hl : ∃ v ∈ s.player.voices, v.station = source) :
    State.hearBusy source dest time s = (s.setVoice source (.talkUntil (s.now + 10 * time + 200))).backOff := by
  unfold State.hearBusy
  rw [namesStation_iff.2 ⟨h1, h62⟩]
  exact (if_pos hd).trans (if_pos (by rw [hears_iff.2 hl, h]; rfl))

theorem hearBusy_goesOn (h1 : 1 ≤ dest) (h62 : dest ≤ 62) (hd : dest = s.settings.station)
    (hn : ¬(∃ v ∈ s.player.voices, v.station = source) ∨ s.player.state ≠ .settling) :
    State.hearBusy source dest time s = s.setVoice source (.talkUntil (s.now + 10 * time + 200)) := by
  unfold State.hearBusy
  rw [namesStation_iff.2 ⟨h1, h62⟩]
  refine (if_pos hd).trans (if_neg ?_)
  rwa [Bool.and_eq_true, hears_iff, beq_iff_eq, not_and_or]

theorem hearBusy_other (h1 : 1 ≤ dest) (h62 : dest ≤ 62) (hd : dest ≠ s.settings.station) :
    State.hearBusy source dest time s = s.setVoice source .talkOn := by
  unfold State.hearBusy
  rw [namesStation_iff.2 ⟨h1, h62⟩]
  exact if_neg hd

theorem hearBusy_unlisted (hn : ¬∃ v ∈ s.player.voices, v.station = source) :
    State.hearBusy source dest time s = s := by
  by_cases hd : dest = 0 ∨ 62 < dest
  · exact hearBusy_nobody hd
  · by_cases hown : dest = s.settings.station
    · rw [hearBusy_goesOn (by omega) (by omega) hown (.inl hn), setVoice_unlisted hn]
    · rw [hearBusy_other (by omega) (by omega) hown, setVoice_unlisted hn]

/-- The entry of a station becomes QUIET while a condition of a claim is not met, another station that talks being one. -/
theorem setVoice_quiet_checkStart
    (h : s.player.queue = [] ∨ s.player.state ≠ .idle ∨ s.line.state ≠ .active ∨
      ∃ v ∈ s.player.voices, v.station ≠ source ∧ v.talking = true) :
    (s.setVoice source .quiet).checkStart = s.setVoice source .quiet :=
  checkStart_unmet (h.imp_right (Or.imp_right (Or.imp_right (talks_setVoice_other _))))

theorem hearEnd_unmet
    (h : s.player.queue = [] ∨ s.player.state ≠ .idle ∨ s.line.state ≠ .active ∨
      ∃ v ∈ s.player.voices, v.station ≠ source ∧ v.talking = true) :
    State.hearEnd source s = s.setVoice source .quiet := by
  unfold State.hearEnd
  split
  · exact setVoice_quiet_checkStart h
  · rename_i hn
    exact (setVoice_unlisted (fun hv => hn (hears_iff.2 hv)) _).symm

end

/-- A frame heard whose event raises no work and owes no announcement. -/
theorem event_heard {k : FrameKind} {body : State → State} (h : Hears s k f) (hb : body s = t) (hw : t.works = s.works)
    (hc : t.announceCheck = s.announceCheck) : event body s = .next t :=
  event_quiet hb ⟨hw.trans h.ready.settled.noWorks, hc.trans h.ready.settled.noCheck⟩

/-- Settles O41: each frame by its kind, a TALK_BUSY by its destination. -/
theorem neighbourTalkIsNoted : Obligations.NeighbourTalkIsNoted := by
  intro s f u voices
  refine ⟨fun h hi => ?_, fun h => ⟨fun h1 h62 hd hs => ?_, fun h1 h62 hd => ?_, fun hd => ?_⟩, fun h hn => ?_⟩
  · rw [exec_talkIntentReceived h]
    exact event_heard h (hearIntent_idle hi) rfl rfl
  · rw [exec_talkBusyReceived h]
    exact event_heard h (hearBusy_goesOn (s := u) h1 h62 hd (.inr hs)) rfl rfl
  · rw [exec_talkBusyReceived h]
    exact event_heard h (hearBusy_other (s := u) h1 h62 hd) rfl rfl
  · rw [exec_talkBusyReceived h]
    exact event_heard h (hearBusy_nobody (s := u) hd) rfl rfl
  · rw [exec_talkEndReceived h]
    exact event_heard h (hearEnd_unmet (s := u) hn) rfl rfl

/-! ## A claim that a frame ends (R92, R93) -/

theorem outranked_iff {source priority : Nat} (hc : s.player.current = some e) :
    s.outranked source priority = true ↔
      e.priority < priority ∨ (e.priority = priority ∧ source < s.settings.station) := by
  unfold State.outranked
  rw [hc]
  simp

theorem ticksToPlay_playing {p : Tick} {clip : Clip} (hs : s.player.state = .playing) (hc : s.player.current = some e)
    (hp : s.player.playStart = some p) (hclip : s.clip? e.clip = some clip) :
    s.ticksToPlay = p + (clip.length + 159) / 160 - s.now := by
  unfold State.ticksToPlay
  simp only [hs, hc, hp, durationOf_eq hclip]

theorem ticksToPlay_fading {fo : Tick} (hs : s.player.state = .fadingOut) (hf : s.player.fadeOutStart = some fo)
    (hp : s.player.playStart = none) : s.ticksToPlay = fo + 20 - s.now := by
  unfold State.ticksToPlay
  cases hc : s.player.current <;> simp only [hs, hf, hp]

theorem ticksToPlay_fading_clip {fo p : Tick} {clip : Clip} (hs : s.player.state = .fadingOut)
    (hf : s.player.fadeOutStart = some fo) (hc : s.player.current = some e) (hp : s.player.playStart = some p)
    (hclip : s.clip? e.clip = some clip) :
    s.ticksToPlay = min (fo + 20 - s.now) (p + (clip.length + 159) / 160 - s.now) := by
  unfold State.ticksToPlay
  simp only [hs, hf, hc, hp, durationOf_eq hclip]

/-- Settles O42: a player that sounds answers; one that settles backs off, or notes the frame alone. -/
theorem intentHeardWhilePlayingOrSettling : Obligations.IntentHeardWhilePlayingOrSettling := by
  intro s f e hc u voices intentUntil answers outranks listed backsOff
  have hanswer {left : Nat} (h : Hears s .talkIntent f) (hq : s.line.queue.length < 8)
      (hs : s.player.state = .playing ∨ s.player.state = .fadingOut) (hleft : s.ticksToPlay = left) : answers left := by
    have hpriority : u.currentPriority = e.priority := by
      unfold State.currentPriority
      rw [show u.player.current = some e from hc]
      rfl
    have hunits : u.remainingUnits = max 1 ((left + 9) / 10) := by
      rw [← hleft]
      rfl
    have hbusy := (hearIntent_sounding (s := u) (source := f.source) (priority := f.byte 0 % 8) (time := f.word 1) hs).trans
      (handOver_room (show FrameKind.talkBusy ≠ .load by decide) hq)
    rw [hpriority, hunits] at hbusy
    exact (exec_talkIntentReceived h).trans (event_heard h hbusy rfl rfl)
  have hback {c : Instr} {until_ : Tick} {k : FrameKind} {body : State → State} (h : Hears s k f)
      (hr : Returnable s e) (hl : listed)
      (hq : s.player.intentSent = true ∨ s.intentInTransmission s.player.claim = true → s.line.queue.length < 8)
      (hx : exec c s = event body s) (hb : body s = (u.setVoice f.source (.talkUntil until_)).backOff) :
      backsOff c until_ := by
    obtain ⟨slots, hbo⟩ := backOff_returns (s := u.setVoice f.source (.talkUntil until_)) (e := e)
      ⟨hr.current, hr.patient, hr.apart, hr.room⟩ hq (.inr (talks_setVoice hl fun _ => rfl))
    exact ⟨_, hx.trans (event_heard h (hb.trans hbo) rfl rfl), rfl, rfl, rfl⟩
  refine ⟨fun h hq => ⟨fun clip p hs hp hclip => ?_, fun fo hs hf => ⟨fun hp => ?_, fun clip p hp hclip => ?_⟩⟩,
    fun hs hq hl hpatient hapart hroom => ⟨fun h ho => ?_, fun h h1 h62 hd => ?_⟩,
    fun hs => ⟨fun h hn => ?_, fun h hn => ?_⟩⟩
  · exact hanswer h hq (.inl hs) (ticksToPlay_playing hs hc hp hclip)
  · exact hanswer h hq (.inr hs) (ticksToPlay_fading hs hf hp)
  · exact hanswer h hq (.inr hs) (ticksToPlay_fading_clip hs hf hc hp hclip)
  · exact hback h ⟨hc, hpatient, hapart, hroom⟩ hl hq (exec_talkIntentReceived h)
      (hearIntent_yields (s := u) hs hl ((outranked_iff (s := u) hc).2 ho))
  · exact hback h ⟨hc, hpatient, hapart, hroom⟩ hl hq (exec_talkBusyReceived h)
      (hearBusy_yields (s := u) h1 h62 hd hs hl)
  · rw [exec_talkIntentReceived h]
    exact event_heard h
      (hearIntent_goesOn (s := u) hs (hn.imp_right fun ho hx => ho ((outranked_iff (s := u) hc).1 hx))) rfl rfl
  · rw [exec_talkBusyReceived h]
    exact event_heard h (hearBusy_unlisted (s := u) hn) rfl rfl

end Sys2Proof.Machine
end

section
/-! The expiries of the voice table and of the wait queue (R84, R88, R90), and the end of the settle window (R80, R93,
R94). -/

namespace Sys2Proof.Machine

variable {s t u : State} {e : SayEntry}

/-! ## Voice-table entries and queued requests -/

theorem exec_voiceEntryExpiry {n : Nat} {v : VoiceEntry} (hr : Ready s) (hv : v ∈ s.player.voices) (hn : v.station = n)
    (he : ∃ x, v.expiry = some x ∧ x ≤ s.now) :
    exec (.voiceEntryExpiry n) s = event (fun t => (t.setVoice n .quiet).checkStart) s := by
  obtain ⟨x, hx, hle⟩ := he
  refine if_pos ?_
  unfold State.voiceDue reached
  rw [inShow_of_ready hr, Bool.true_and, List.any_eq_true]
  exact ⟨v, hv, by simp [hn, hx, hle]⟩

theorem exec_patienceExpiry (hr : Ready s) (h : s.impatient e.slot e.clip = some e) :
    exec (.patienceExpiry e.slot e.clip) s =
      event (fun t =>
        (t.setSayQueue (t.player.queue.filter fun x => !x.isFor e.slot e.clip)).reportSay e .expired) s := by
  show execPatienceExpiry e.slot e.clip s = _
  unfold execPatienceExpiry
  rw [if_pos (inShow_of_ready hr), h]

/-- With every other entry QUIET, the table is QUIET once this one is. -/
theorem quiet_setVoice {n : Nat} (h : ∀ x ∈ s.player.voices, x.station ≠ n → x.talking = false) :
    ∀ x ∈ (s.setVoice n .quiet).player.voices, x.talking = false := by
  intro x hx
  obtain ⟨y, hy, rfl⟩ := List.mem_map.1 hx
  split
  · rfl
  · rename_i hn
    exact h y hy hn

/-- Settles O38: the entry made QUIET with the start check that follows, and the request that leaves with its report. -/
theorem voiceAndPatienceExpire : Obligations.VoiceAndPatienceExpire := by
  intro s n v e hr voices
  refine ⟨fun hv hn he => ⟨fun hno => ?_, fun rest clip hq hi hl hquiet hroom hclip => ?_⟩, fun himp hnobody => ?_⟩
  · rw [exec_voiceEntryExpiry hr hv hn he]
    exact event_quiet (setVoice_quiet_checkStart hno) ⟨hr.settled.noWorks, hr.settled.noCheck⟩
  · obtain ⟨slots, hclaim⟩ :=
      checkStart_claims (s := s.setVoice n .quiet) (e := e) hq hi hl (quiet_setVoice hquiet) hroom
    rw [durationOf_eq (s := s.setVoice n .quiet) hclip] at hclaim
    rw [exec_voiceEntryExpiry hr hv hn he]
    exact ⟨_, event_quiet hclaim ⟨hr.settled.noWorks, hr.settled.noCheck⟩, rfl, rfl, rfl⟩
  · have hreport := reportSay_eq
      (s := s.setSayQueue (s.player.queue.filter fun x => !x.isFor e.slot e.clip)) (e := e) .expired (hnobody e.slot)
    rw [exec_patienceExpiry hr himp]
    refine ⟨_, event_quiet hreport ⟨hr.settled.noWorks, hr.settled.noCheck⟩, rfl, fun i hm hi hc => ?_, rfl⟩
    exact (congrArg Slot.run (setSlot_same _ _)).trans (reportedSlot_own .expired hm hi hc)

/-! ## The settle window (R80, R93, R94) -/

theorem exec_windowEnd {w : Tick} (hr : Ready s) (hs : s.player.state = .settling) (hw : s.player.windowEnd = some w)
    (hle : w ≤ s.now) : exec .windowEnd s = event State.endWindow s := by
  refine if_pos ?_
  unfold State.windowDue reached
  rw [inShow_of_ready hr, hs, hw]
  simpa using hle

/-- R94: the player that begins to play, before its first sample. -/
def playBegun (s : State) : State :=
  { s with
    player.state := .playing, player.windowEnd := none, player.playStart := some s.now, player.samplesSent := 0 }

theorem startPlaying_eq (hc : s.player.current = some e) :
    ∃ slots, s.startPlaying = { (playBegun s).sendSample with engine.slots := slots } := by
  unfold State.startPlaying
  rw [hc]
  exact reportSay_slots rfl

/-- R80: the first sample goes out at the gain of the clip and of the bay. -/
theorem playBegun_sendSample {clip : Clip} (hc : s.player.current = some e) (hclip : s.clip? e.clip = some clip)
    (hl : 0 < clip.length) (hquiet : ∀ v ∈ s.player.voices, v.talking = false) :
    (playBegun s).sendSample.player.samplesSent = 1 ∧
      (playBegun s).sendSample.player.audioOutput =
        ((Memory.read s.memory clip.start).toInt * 16 *
          ((clip.gain * s.settings.bayVolume / 1000 : Nat) : Int)).tdiv 1000 := by
  have hsilent : (playBegun s).player.voices.any (fun v => v.talking) = false := by
    rw [List.any_eq_false]
    exact fun v hv => by rw [hquiet v hv]; decide
  rw [sendSample_next (s := playBegun s) (e := e) (p := s.now) hc rfl hclip hl]
  refine ⟨rfl, ?_⟩
  show sampleOutput _ ((playBegun s).effectiveGain clip) = _
  rw [effectiveGain_playing rfl, hsilent]
  rfl

/-- Settles O39: by the voice table at the window's end. -/
theorem windowEndPlaysOrBacksOff : Obligations.WindowEndPlaysOrBacksOff := by
  intro s e w hr hs hc hsent hw hle
  rw [exec_windowEnd hr hs hw hle]
  refine ⟨fun hquiet => ?_, fun htalks hpatient hapart hroom hlen => ?_⟩
  · obtain ⟨slots, hplay⟩ := startPlaying_eq hc
    obtain ⟨output, sent, hsample⟩ := sendSample_frame (playBegun s)
    have hend : s.endWindow = { (playBegun s).sendSample with engine.slots := slots } :=
      (if_pos (allQuiet_iff.2 hquiet)).trans hplay
    have hsettled : Settled { (playBegun s).sendSample with engine.slots := slots } := by
      rw [hsample]
      exact ⟨hr.settled.noWorks, hr.settled.noCheck⟩
    refine ⟨_, event_quiet hend hsettled, ?_, fun clip hclip hl => playBegun_sendSample hc hclip hl hquiet, ?_⟩
    · rw [hsample]
      rfl
    · rw [hsample]
      rfl
  · obtain ⟨v, hv, ht⟩ := htalks
    have hloud : ¬s.allQuiet = true := fun hq => by
      rw [allQuiet_iff.1 hq v hv] at ht
      cases ht
    obtain ⟨slots, hback⟩ := backOff_returns (s := s) ⟨hc, hpatient, hapart, hroom⟩ (fun _ => hlen) (.inr ⟨v, hv, ht⟩)
    refine ⟨_, event_quiet ((if_neg hloud).trans hback) ⟨hr.settled.noWorks, hr.settled.noCheck⟩, rfl, ?_, rfl⟩
    exact if_neg fun hx => by rw [hsent] at hx; cases hx.1

end Sys2Proof.Machine
end

section
/-! Frames of the own number (R91, R141, R147), and the entry into HALTED that one of them makes (R149, R150). -/

namespace Sys2Proof.Machine

variable {s t u v : State} {e : SayEntry}

/-! ## The player when the line is not ACTIVE (R91, R100) -/

/-- The works that the end of a claim may raise: an AWAIT of its slot that is over. -/
def AwaitEnded (ws : List Work) : Prop := ws = [] ∨ ∃ k mark, ws = [.awaitDone k mark]

theorem endAwait_raises (subject : Subject) (out : AwaitOutcome) (k : Fin 4) :
    ∃ slots ws, s.endAwait subject out k = { s with engine.slots := slots, works := s.works ++ ws } ∧ AwaitEnded ws := by
  have hsame : ∃ slots ws, s = { s with engine.slots := slots, works := s.works ++ ws } ∧ AwaitEnded ws :=
    ⟨s.engine.slots, [], by rw [List.append_nil], .inl rfl⟩
  unfold State.endAwait
  split
  · split
    · exact ⟨_, _, rfl, .inr ⟨_, _, rfl⟩⟩
    · exact hsame
  · exact hsame

theorem reportSay_raises (hd : Handle) :
    ∃ slots ws, s.reportSay e hd = { s with engine.slots := slots, works := s.works ++ ws } ∧ AwaitEnded ws := by
  have hsame : ∃ slots ws, s = { s with engine.slots := slots, works := s.works ++ ws } ∧ AwaitEnded ws :=
    ⟨s.engine.slots, [], by rw [List.append_nil], .inl rfl⟩
  unfold State.reportSay
  split
  · split
    · simp only []
      split
      · exact endAwait_raises _ _ _
      · exact ⟨_, [], by rw [List.append_nil]; rfl, .inl rfl⟩
    · exact hsame
  · exact hsame

/-- R93: whatever becomes of a request that returns, at most one AWAIT is over. -/
theorem returnSay_raises :
    ∃ q slots ws, s.returnSay e = { s with player.queue := q, engine.slots := slots, works := s.works ++ ws } ∧
      AwaitEnded ws := by
  unfold State.returnSay
  split
  · obtain ⟨slots, ws, hr, hws⟩ := reportSay_raises (s := s) (e := e) .expired
    exact ⟨s.player.queue, slots, ws, hr, hws⟩
  · split
    · exact ⟨_, s.engine.slots, [], by rw [List.append_nil]; rfl, .inl rfl⟩
    · simp only []
      split
      · obtain ⟨slots, hr⟩ := reportSay_slots (s := s.setSayQueue (insertSay e s.player.queue)) (e := e) (hd := .queued) rfl
        exact ⟨_, slots, [], by rw [hr, List.append_nil]; rfl, .inl rfl⟩
      · split
        · rename_i last hlast
          obtain ⟨slots, ws, hr, hws⟩ :=
            reportSay_raises (s := s.setSayQueue (insertSay e s.player.queue).dropLast) (e := last) .dropped
          rw [hr]
          split
          · exact ⟨_, slots, ws, rfl, hws⟩
          · obtain ⟨slots', hr'⟩ := reportSay_slots (s :=
              { s.setSayQueue (insertSay e s.player.queue).dropLast with engine.slots := slots, works := s.works ++ ws })
              (e := e) (hd := .queued) rfl
            exact ⟨_, slots', ws, hr', hws⟩
        · exact ⟨s.player.queue, s.engine.slots, [], by rw [List.append_nil], .inl rfl⟩

theorem endClaim_raises :
    ∃ player slots ws, s.endClaim = { s with player := player, engine.slots := slots, works := s.works ++ ws } ∧
      AwaitEnded ws := by
  unfold State.endClaim
  split
  · rename_i e he
    obtain ⟨q, slots, ws, hr, hws⟩ := returnSay_raises (e := e) (s :=
      { s with player.state := .idle, player.current := none, player.intentSent := false, player.windowEnd := none })
    exact ⟨_, slots, ws, hr, hws⟩
  · exact ⟨_, s.engine.slots, [], by rw [List.append_nil], .inl rfl⟩

theorem playerLineChanged_stays (hl : s.line.state ≠ .active)
    (h : s.player.state ≠ .settling ∨ s.player.intentSent = true) : s.playerLineChanged = s :=
  (if_neg hl).trans (if_neg fun hx => h.elim (· hx.1) fun hs => by rw [hx.2] at hs; cases hs)

theorem playerLineChanged_backs (hl : s.line.state ≠ .active) (hs : s.player.state = .settling)
    (hw : s.player.intentSent = false) : s.playerLineChanged = s.backOff :=
  (if_neg hl).trans (if_pos ⟨hs, hw⟩)

/-- No intent is in transmission while no frame is. -/
theorem intentInTransmission_none (h : s.transmitting = false) (claim : Nat) :
    s.intentInTransmission claim = false := by
  unfold State.transmitting at h
  unfold State.intentInTransmission
  rw [List.any_eq_false] at h ⊢
  intro x hx
  simp [h x hx]

theorem recalled_waiting (hw : s.player.intentSent = false) (ht : s.transmitting = false) :
    recalled s = s.line.queue.filter fun x => !(x.isIntent && x.claim == s.player.claim && !x.inTransmission) :=
  if_pos ⟨hw, intentInTransmission_none ht _⟩

/-- R91: a line that is not ACTIVE, with no frame in transmission, ends a waiting claim and nothing else. -/
theorem playerLineChanged_frame (hl : s.line.state ≠ .active) (ht : s.transmitting = false) :
    ∃ player queue slots ws, s.playerLineChanged =
        { s with player := player, line.queue := queue, engine.slots := slots, works := s.works ++ ws } ∧
      AwaitEnded ws ∧ queue.length ≤ s.line.queue.length ∧ (s.player.state ≠ .settling → ws = []) := by
  by_cases h : s.player.state = .settling ∧ s.player.intentSent = false
  · obtain ⟨player, slots, ws, hend, hws⟩ := endClaim_raises (s := s.withdrawIntent s.player.claim)
    refine ⟨player, (s.withdrawIntent s.player.claim).line.queue, slots, ws, ?_, hws, List.length_filter_le _ _,
      fun hs => absurd h.1 hs⟩
    have hrecall : (if s.player.intentSent = false ∧ s.intentInTransmission s.player.claim = false then
        s.withdrawIntent s.player.claim else s.handOver .talkEnd) = s.withdrawIntent s.player.claim :=
      if_pos ⟨h.2, intentInTransmission_none ht _⟩
    rw [playerLineChanged_backs hl h.1 h.2]
    unfold State.backOff
    simp only [hrecall, hend]
    exact checkStart_unmet (.inr (.inr (.inl hl)))
  · rw [not_and_or, Bool.not_eq_false] at h
    exact ⟨s.player, s.line.queue, s.engine.slots, [],
      by rw [playerLineChanged_stays hl h, List.append_nil], .inl rfl, Nat.le_refl _, fun _ => rfl⟩

/-! ## DUPLICATE (R147) -/

/-- The fault list once a frame of the own number has been recorded. -/
def duplicateNoted (s : State) : FaultList := (s.recordFault .duplicate s.settings.station).faults

/-- The station once a DUPLICATE has been recorded and the line is SILENT, before the player hears of it. -/
def silenced (s : State) (lamps : Vector Lamp 12) (share : Share) : State :=
  { s with
    faults := duplicateNoted s, line.state := .silent, line.muteTimer := none, lamps := lamps, share := share
    announceCheck := true }

theorem duplicate_silent (h : s.line.state = .silent) : s.duplicate = s.recordFault .duplicate s.settings.station :=
  if_pos h

/-- R62, R147: on a SILENT line the allowance is at most the base share. -/
theorem duplicate_silences (h : s.line.state ≠ .silent) (hn : NothingWaits s) :
    ∃ lamps share, s.duplicate = (silenced s lamps share).playerLineChanged ∧
      share.allowance = min share.ownDemand (1000 * s.settings.baseShare) := by
  generalize hx : ({ s with faults := duplicateNoted s, line.muteTimer := none, line.state := .silent } : State) = x
  have hq : NothingWaits x := by rw [← hx]; exact hn
  obtain ⟨lamps, share, hrec, -⟩ := recompute_frame hq
  have hshare : x.recompute.share.allowance = min x.recompute.share.ownDemand (milli s.settings.baseShare) := by
    rw [recompute_share hq, State.formAllowance_share, ← hx]
    rfl
  refine ⟨lamps, share, (if_neg h).trans ?_, ?_⟩
  · show State.playerLineChanged
      (State.recompute { s with faults := duplicateNoted s, line.muteTimer := none, line.state := .silent }) = _
    rw [hx, hrec, ← hx]
    rfl
  · rw [hrec] at hshare
    rw [Nat.mul_comm]
    exact hshare

/-- What a DUPLICATE changes with no frame in transmission. -/
theorem duplicate_frame (hn : NothingWaits s) (ht : s.transmitting = false) :
    ∃ lamps share check mute player queue slots ws, s.duplicate =
        { s with
          faults := duplicateNoted s, line.state := .silent, line.muteTimer := mute, line.queue := queue
          lamps := lamps, share := share, announceCheck := check, player := player, engine.slots := slots
          works := s.works ++ ws } ∧
      AwaitEnded ws ∧ queue.length ≤ s.line.queue.length ∧ (s.player.state ≠ .settling → ws = []) := by
  by_cases hl : s.line.state = .silent
  · refine ⟨s.lamps, s.share, s.announceCheck, s.line.muteTimer, s.player, s.line.queue, s.engine.slots, [], ?_, .inl rfl,
      Nat.le_refl _, fun _ => rfl⟩
    rw [duplicate_silent hl, List.append_nil, ← hl]
    rfl
  · obtain ⟨lamps, share, hd, -⟩ := duplicate_silences hl hn
    obtain ⟨player, queue, slots, ws, hp, hrest⟩ :=
      playerLineChanged_frame (s := silenced s lamps share) (fun hx : LineState.silent = .active => by cases hx) ht
    exact ⟨lamps, share, true, none, player, queue, slots, ws, hd.trans hp, hrest⟩

theorem mem_duplicateNoted (s : State) :
    ∃ x ∈ (duplicateNoted s).records, x.kind = .duplicate ∧ x.detail = BitVec.ofNat 8 s.settings.station :=
  mem_recordFault s .duplicate s.settings.station

/-! ## The check of a received frame (R141, R147) -/

/-- Every kind of frame is checked before it is routed. -/
theorem exec_frameCommand (k : FrameKind) (f : Frame) (s : State) :
    ∃ route, exec (frameCommand k f) s = event (fun t => t.receive k f route) s := by
  cases k <;> exact ⟨_, rfl⟩

theorem receive_dropped {k : FrameKind} {f : Frame} (route : State → State)
    (h : f.valid k = false ∨ s.phase ≠ .running ∨ s.line.state = .off) : s.receive k f route = s := by
  refine if_neg fun hx => ?_
  simp only [State.inShow, LineState.receives, Bool.and_eq_true, beq_iff_eq, bne_iff_ne] at hx
  obtain ⟨⟨hp, hl⟩, hv⟩ := hx
  rcases h with h | h | h
  · rw [hv] at h
    cases h
  · exact h hp
  · exact hl h

/-- A valid frame of the own number reaches a station that runs its show with its line on. -/
structure HearsOwn (s : State) (k : FrameKind) (f : Frame) : Prop where
  ready : Ready s
  line : s.line.state ≠ .off
  valid : f.valid k = true
  source : f.source = s.settings.station

theorem receive_own {k : FrameKind} {f : Frame} (h : HearsOwn s k f) (route : State → State) :
    s.receive k f route =
      if s.transmitting then s else if k = .halt ∨ k = .resume then route s.duplicate else s.duplicate := by
  have hon : (s.inShow && s.line.state.receives && f.valid k) = true := by
    simp [inShow_of_ready h.ready, LineState.receives, h.line, h.valid]
  exact (if_pos hon).trans (if_pos h.source)

theorem exec_own_sending {k : FrameKind} {f : Frame} (h : HearsOwn s k f) (ht : s.transmitting = true) :
    exec (frameCommand k f) s = .next s := by
  obtain ⟨route, hx⟩ := exec_frameCommand k f s
  rw [hx]
  exact event_quiet ((receive_own h route).trans (if_pos ht)) h.ready.settled

theorem exec_own {k : FrameKind} {f : Frame} (h : HearsOwn s k f) (ht : s.transmitting = false) (hh : k ≠ .halt)
    (hr : k ≠ .resume) : exec (frameCommand k f) s = event (fun _ => s.duplicate) s := by
  obtain ⟨route, hx⟩ := exec_frameCommand k f s
  rw [hx]
  refine event_congr ((receive_own h route).trans ?_)
  rw [ht]
  exact if_neg (not_or.2 ⟨hh, hr⟩)

theorem exec_own_halt {f : Frame} (h : HearsOwn s .halt f) (ht : s.transmitting = false) :
    exec (frameCommand .halt f) s = event (fun _ => s.duplicate.haltFrame) s := by
  refine event_congr ((receive_own h _).trans ?_)
  rw [ht]
  rfl

theorem exec_own_resume {f : Frame} (h : HearsOwn s .resume f) (ht : s.transmitting = false) :
    exec (frameCommand .resume f) s = event (fun _ => s.duplicate.resumeFrame) s := by
  refine event_congr ((receive_own h _).trans ?_)
  rw [ht]
  rfl

/-- An event on a SILENT line ends with no announcement. -/
theorem event_silent {body : State → State} (hb : body s = t) (hw : t.works = []) (hl : t.line.state = .silent) :
    event body s = .next { t with announceCheck := false } := by
  rw [event_ends hb (settle_done 0 hw) (by decide), announce_undue (not_due_silent hl)]

/-! ## The faults of an entry into HALTED with room for its frames (R99, R123, R139) -/

theorem haltNarration_room (h : s.line.queue.length < 8) :
    ∃ player queue, s.haltNarration = { s with player := player, line.queue := queue } ∧
      queue.length ≤ s.line.queue.length + 1 := by
  unfold State.haltNarration
  split
  · exact ⟨_, s.line.queue, rfl, Nat.le_succ _⟩
  · rw [handOver_room (by decide) h]
    exact ⟨_, _, rfl, Nat.le_of_eq (insertTx_length _ _)⟩

theorem haltTrack_faults (hh : s.halted = true) (hfree : AllFree s) (h : s.line.queue.length < 8) :
    s.haltTrack.faults = s.faults := by
  unfold State.haltTrack
  split
  · obtain ⟨q, lamps, share, hask, -⟩ := withdrawnAsk_frame (s := s) (.inl hh) h
    rw [withdrawAsk_eq, trackOutcome_eq, completeAwaits_none _ (AllFree.awaits (by rw [hask]; exact hfree) .track), hask]
    rfl
  · split
    · obtain ⟨drives, hstop, -⟩ := stopSegment_frame s
      obtain ⟨lamps, share, hrec, -⟩ := recompute_frame
        (s := { s.stopSegment with
          track.grantTimer := s.track.grantTimer.freeze s.now, track.settle := s.track.settle.freeze s.now })
        (.inl (by rw [hstop]; exact hh))
      rw [hrec, hstop]
    · rfl

theorem enterHalt_faults {r : HaltReason} (h : s.line.queue.length < 7) : (s.enterHalt r).faults = s.faults := by
  obtain ⟨engine, ns, hscenes, -, hfree, -⟩ := haltScenes_frame { s with halt := some r }
  obtain ⟨lamps, share, check, hfades, -⟩ := haltFades_frame (s := State.haltScenes { s with halt := some r })
    (by rw [hscenes]; rfl)
  obtain ⟨player, queue, hnarr, hlen⟩ := haltNarration_room
    (s := State.haltAdmissions (State.haltFades (State.haltScenes { s with halt := some r })))
    (by rw [hfades, hscenes]; exact Nat.lt_succ_of_lt h)
  obtain ⟨drives, lamps', share', hdrives, -⟩ := haltDrives_frame
    (s := State.haltNarration (State.haltAdmissions (State.haltFades (State.haltScenes { s with halt := some r }))))
    (by rw [hnarr, hfades, hscenes]; rfl)
  unfold State.enterHalt
  rw [haltTrack_faults]
  · rw [hdrives, hnarr, hfades, hscenes]
    rfl
  · rw [hdrives, hnarr, hfades, hscenes]
    rfl
  · rw [hdrives, hnarr, hfades, hscenes]
    exact hfree
  · rw [hfades, hscenes] at hlen
    rw [hdrives, hnarr]
    exact lt_of_le_of_lt hlen (Nat.succ_lt_succ h)

/-! ## The end of the event -/

theorem takeAwaitDone_free (h : AllFree s) (k : Fin 4) (mark : BitVec 8) : s.takeAwaitDone k mark = s := by
  have hnone : s.instanceOf k mark = none := by
    unfold State.instanceOf
    rw [h k, ite_self]
  unfold State.takeAwaitDone
  rw [hnone]

theorem settle_awaitEnded {ws : List Work} (hws : AwaitEnded ws) (h : AllFree s) :
    State.settle ws.length (withWorks s ws) = some (withWorks s []) := by
  refine settle_idle fun w hw => ?_
  rcases hws with rfl | ⟨k, mark, rfl⟩
  · cases hw
  · rw [List.mem_singleton.1 hw]
    exact takeAwaitDone_free (s := withWorks s []) h k mark

/-- An entry into HALTED by a frame, on a SILENT line, after the end of a claim. -/
theorem event_halted_silent {r : HaltReason} (h : EnteredHalt s r t) (hw : AwaitEnded s.works)
    (hl : s.line.state = .silent) :
    ∃ inputs, event (fun _ => t.recordHalted r) v =
      .next { t.recordHalted r with inputs := inputs, works := [], announceCheck := false } := by
  obtain ⟨ns, hworks, hlen⟩ := h.works
  obtain ⟨engine, lamps, share, player, queue, faults, drives, track, works, check, ht⟩ := h.rest
  have hhalt : (t.recordHalted r).halted = true := halted_of_halt h.halt
  have hsilent : (t.recordHalted r).line.state = .silent := by
    rw [ht]
    exact hl
  have hidle : ∀ w ∈ ns.map Work.retake, IdleWork w := fun w hm => by
    obtain ⟨n, -, rfl⟩ := List.mem_map.1 hm
    exact .inl ⟨n, rfl⟩
  obtain ⟨inputs, hretakes, -⟩ := settle_idleWorks hidle hhalt
  have hends := settle_append (settle_awaitEnded (s := t.recordHalted r) hw h.slots) hretakes
  rw [withWorks_self (show (t.recordHalted r).works = _ from hworks)] at hends
  refine ⟨inputs, ?_⟩
  rw [event_ends (body := fun _ => t.recordHalted r) rfl hends ?_,
    announce_undue (s := { t.recordHalted r with inputs := inputs, works := [] }) (not_due_silent hsilent)]
  have hone : s.works.length ≤ 1 := by
    rcases hw with hw | ⟨k, mark, hw⟩ <;> simp [hw]
  rw [List.length_map]
  omega

/-! ## The frames of the own number (R147) -/

/-- The event of a frame of the own number: DUPLICATE is recorded, the line is SILENT, the peer table is as it was. -/
def Duplicates (s : State) (c : Instr) (t : State) : Prop :=
  exec c s = .next t ∧ t.line.state = .silent ∧ t.line.peers = s.line.peers ∧
    ∃ x ∈ t.faults.records, x.kind = .duplicate ∧ x.detail = BitVec.ofNat 8 s.settings.station

section

variable {k : FrameKind} {f : Frame}

theorem silenced_not_active (lamps : Vector Lamp 12) (share : Share) : (silenced s lamps share).line.state ≠ .active := by
  show LineState.silent ≠ .active
  decide

/-- R91: no claim, or one whose TALK_INTENT was sent, goes on. -/
theorem own_goesOn (h : HearsOwn s k f) (ht : s.transmitting = false) (hh : k ≠ .halt) (hr : k ≠ .resume)
    (hl : s.line.state ≠ .silent) (hp : s.player.state ≠ .settling ∨ s.player.intentSent = true) (hn : NothingWaits s) :
    ∃ lamps share, Duplicates s (frameCommand k f) { silenced s lamps share with announceCheck := false } ∧
      share.allowance = min share.ownDemand (1000 * s.settings.baseShare) := by
  obtain ⟨lamps, share, hd, hallow⟩ := duplicate_silences hl hn
  rw [playerLineChanged_stays (silenced_not_active lamps share) hp] at hd
  exact ⟨lamps, share, ⟨(exec_own h ht hh hr).trans (event_silent hd h.ready.settled.noWorks rfl), rfl, rfl,
    mem_duplicateNoted s⟩, hallow⟩

/-- R91: a claim whose TALK_INTENT waits backs off. -/
theorem own_backsOff (h : HearsOwn s k f) (ht : s.transmitting = false) (hh : k ≠ .halt) (hr : k ≠ .resume)
    (hl : s.line.state ≠ .silent) (hw : WaitsToClaim s e) (hn : NothingWaits s) :
    ∃ t, Duplicates s (frameCommand k f) t ∧ t.player = backedOff s.player e ∧
      t.line =
        { s.line with
          state := .silent, muteTimer := none
          queue := s.line.queue.filter fun x => !(x.isIntent && x.claim == s.player.claim && !x.inTransmission) } := by
  obtain ⟨lamps, share, hd, -⟩ := duplicate_silences hl hn
  have hroom : s.player.intentSent = true ∨ s.intentInTransmission s.player.claim = true → s.line.queue.length < 8 := by
    rw [hw.waiting, intentInTransmission_none ht]
    simp
  obtain ⟨slots, hback⟩ := backOff_returns (s := silenced s lamps share) (e := e)
    ⟨hw.current, hw.patient, hw.apart, hw.room⟩ hroom (.inl (silenced_not_active lamps share))
  rw [playerLineChanged_backs (silenced_not_active lamps share) hw.state hw.waiting, hback,
    recalled_waiting (s := silenced s lamps share) hw.waiting ht] at hd
  exact ⟨_, ⟨(exec_own h ht hh hr).trans (event_silent hd h.ready.settled.noWorks rfl), rfl, rfl, mem_duplicateNoted s⟩,
    rfl, rfl⟩

/-- R147, R150: a HALT of the own number halts the station. -/
theorem own_halts (h : HearsOwn s .halt f) (ht : s.transmitting = false) (hh : s.halt = none) (hsafe : SegmentSafe s)
    (hn : NothingWaits s) (hq : s.line.queue.length < 7) :
    ∃ t, Duplicates s (frameCommand .halt f) t ∧ t.halt = some .line ∧ HaltSafe t := by
  obtain ⟨lamps, share, check, mute, player, queue, slots, ws, hd, hws, hlen, -⟩ := duplicate_frame hn ht
  have hentered : EnteredHalt s.duplicate .line (s.duplicate.enterHalt .line) :=
    enterHalt_entered (by rw [hd]; exact hsafe.running)
  have hfaults : (s.duplicate.enterHalt .line).faults = duplicateNoted s := by
    rw [enterHalt_faults (by rw [hd]; exact lt_of_le_of_lt hlen hq), hd]
  have hbody : s.duplicate.haltFrame = (s.duplicate.enterHalt .line).recordHalted .line := by
    refine if_neg ?_
    unfold State.halted
    rw [hd, hh]
    decide
  have hworks : AwaitEnded s.duplicate.works := by
    rw [hd, h.ready.settled.noWorks]
    exact hws
  generalize s.duplicate.enterHalt .line = t at hentered hfaults hbody
  obtain ⟨inputs, hevent⟩ := event_halted_silent (v := s) hentered hworks (by rw [hd])
  have hline : t.line.state = .silent ∧ t.line.peers = s.line.peers := by
    obtain ⟨engine, lamps, share, player, queue, faults, drives, track, works, check, hrest⟩ := hentered.rest
    rw [hrest, hd]
    exact ⟨rfl, rfl⟩
  have hnewest : NewestRecord t.faults .duplicate (BitVec.ofNat 8 s.settings.station) := by
    rw [hfaults]
    exact newest_recordFault s .duplicate s.settings.station
  have hexec := exec_own_halt h ht
  rw [hbody, hevent] at hexec
  exact ⟨_, ⟨hexec, hline.1, hline.2, hnewest.mem_recordFault (other := .halted) (by decide) 1⟩, hentered.halt,
    hentered.haltSafe rfl rfl rfl rfl⟩

/-- R147, R151: a RESUME of the own number takes the station out of HALTED. -/
theorem own_resumes (h : HearsOwn s .resume f) (ht : s.transmitting = false) (hh : s.halt ≠ none)
    (hstop : s.stopLevel = false) (hhand : s.inHandover = false) (hp : s.player.state ≠ .settling) :
    ∃ t, Duplicates s (frameCommand .resume f) t ∧ t.halt = none := by
  have hhalted : s.halted = true := Option.isSome_iff_ne_none.2 hh
  obtain ⟨lamps, share, check, mute, player, queue, slots, ws, hd, -, -, hnone⟩ := duplicate_frame (.inl hhalted) ht
  have hexec := exec_own_resume h ht
  generalize s.duplicate = d at hd hexec
  have hbody : d.resumeFrame = { flagCleared d with halt := none, announceCheck := true } := by
    have hdstop : d.stopLevel = false := by
      rw [hd]
      exact hstop
    rw [resumeFrame_eq, if_pos (by rw [hd]; exact hhalted), hdstop]
    exact leaveHalt_free (s := flagCleared d) (by rw [hd]; exact hhand)
  have hworks : d.works = [] := by
    rw [hd, hnone hp, h.ready.settled.noWorks]
    rfl
  have hsilent : d.line.state = .silent := by rw [hd]
  rw [event_silent (body := fun _ => d.resumeFrame) hbody hworks hsilent] at hexec
  refine ⟨_, ⟨hexec, hsilent, ?_, ?_⟩, rfl⟩
  · rw [hd]
    rfl
  · rw [hd]
    exact mem_duplicateNoted s

end

/-- Settles O55: the checks, and the frames of the own number by what the station is sending, by the player's claim, and for
HALT and RESUME. -/
theorem framesAreCheckedBeforeUse : Obligations.FramesAreCheckedBeforeUse := by
  intro k f s hset duplicate
  refine ⟨fun h => ?_, fun hr hv hl hsrc => ?_⟩
  · obtain ⟨route, hx⟩ := exec_frameCommand k f s
    rw [hx]
    exact event_quiet (receive_dropped route h) hset
  · have hown : HearsOwn s k f := ⟨hr, hl, hv, hsrc⟩
    refine ⟨exec_own_sending hown, fun ht hh hres => ⟨fun hs => ?_, fun hs hp hn => ?_, fun e hs hw hn => ?_⟩,
      fun ht hk hh hsafe hn hq => ?_, fun ht hk hh hstop hhand hp => ?_⟩
    · rw [exec_own hown ht hh hres]
      exact event_quiet (duplicate_silent hs) ⟨hset.noWorks, hset.noCheck⟩
    · obtain ⟨lamps, share, hd, hallow⟩ := own_goesOn hown ht hh hres hs hp hn
      exact ⟨_, hd, rfl, rfl, rfl, rfl, rfl, hallow⟩
    · exact own_backsOff hown ht hh hres hs hw hn
    · subst hk
      exact own_halts hown ht hh hsafe hn hq
    · subst hk
      exact own_resumes hown ht hh hstop hhand hp

end Sys2Proof.Machine
end

section
/-! The sixteenth error in a row (R136, R137) when the frame held aside is not a LOAD. -/

namespace Sys2Proof.Machine

/-- The transmit queue that a command leaves, when it answers a next state. -/
def queueAfter : Host.Outcome State Fault Refusal → Option (List TxEntry)
  | .next t => some t.line.queue
  | _ => none

/-- A request of slot 0 for clip 0 that waits until tick 100. -/
def strayClaim : SayEntry := ⟨0, 0, 0, 0, 0, 100, 0, 0⟩

/-- A station whose TALK_INTENT waits while its LOAD is in transmission, with 15 errors in a row. A TALK_END stands where the
model holds a LOAD aside: no run from reset leads there, but the statement's hypotheses do not say what is held aside. -/
def strayHeld : State :=
  { State.reset with
    phase := .running
    line :=
      { Line.off with
        state := .active, errors := 15, queue := [⟨.talkIntent 0 1, 0, false, 0⟩, ⟨.load 0 0 false, 0, true, 0⟩]
        heldLoad := some ⟨.talkEnd, 0, false, 0⟩ }
    player := { Player.atRest with state := .settling, current := some strayClaim } }

theorem strayHeld_waits : WaitsToClaim strayHeld strayClaim where
  state := rfl
  waiting := rfl
  current := rfl
  patient := by decide
  apart := nofun
  room := by decide

/-- R138: the frame held aside takes the place of the LOAD that did not go out. -/
theorem strayHeld_aborts : queueAfter (exec .readbackAbort strayHeld) = some [⟨.talkEnd, 0, false, 0⟩] := by
  decide +kernel

/-- Refutes O56: a ready state may hold a TALK_END aside, which an abort enters in the queue, where the statement has no
TALK_END in the queue that was not there before. The state is not reachable from reset: there the frame held aside is
always a LOAD. -/
theorem not_attemptsAndTheirEnds : ¬Obligations.AttemptsAndTheirEnds := by
  intro h
  obtain ⟨-, -, hends⟩ := h strayHeld ⟨rfl, rfl, rfl⟩
  obtain ⟨-, -, hmutes, -⟩ := hends rfl rfl
  obtain ⟨-, hbacksOff⟩ := hmutes rfl (.inr rfl)
  obtain ⟨t, ⟨hx, -⟩, -, hfresh⟩ := hbacksOff strayClaim strayHeld_waits
  have hqueue : t.line.queue = [⟨.talkEnd, 0, false, 0⟩] := by
    have := strayHeld_aborts
    rw [hx] at this
    exact Option.some.inj this
  obtain ⟨y, hy, hbody⟩ := hfresh ⟨.talkEnd, 0, false, 0⟩ (by rw [hqueue]; exact List.mem_singleton_self _) rfl
  have hnone : ∀ x ∈ strayHeld.line.queue, x.body ≠ .talkEnd := by decide
  exact hnone y hy hbody

end Sys2Proof.Machine
end

section
/-! A drive's fault in any state when no scene waits on it (R114), and what a count makes of a drive's record (R104,
R107 to R109). -/

namespace Sys2Proof.Machine

variable {s : State} {d : Fin 4} {r : Drive}

/-! ## Faults that no scene waits on -/

/-- R114: what the fault of a drive does, whether the drive claims watts (R59) or not. -/
theorem driveFault_frame (kind : FaultKind) (hs : s.drives[d].state ≠ .faulted) (ha : NobodyAwaits s (.drive d))
    (hn : NothingElseWaits s d) :
    ∃ lamps share check, s.driveFault d kind =
      State.recordFault
        { s.setDrive d (faultedDrive s.drives[d]) with lamps := lamps, share := share, announceCheck := check } kind
        d.val := by
  generalize ht : (s.setDrive d (faultedDrive s.drives[d])).dropEntry d = t
  have hfault : s.driveFault d kind =
      ((if s.claims d then t.recompute else t).recordFault kind d.val).completeAwaits (.drive d) .failed := by
    rw [← ht]
    exact if_neg hs
  have hframe : ∃ lamps share check, (if s.claims d then t.recompute else t) =
      { s.setDrive d (faultedDrive s.drives[d]) with lamps := lamps, share := share, announceCheck := check } := by
    split
    · have hq : NothingWaits t := by
        rw [← ht]
        exact nothingWaits_dropEntry (s := s.setDrive d (faultedDrive s.drives[d])) hn
      obtain ⟨lamps, share, hrec, -⟩ := recompute_frame hq
      exact ⟨lamps, share, true, by rw [hrec, ← ht]; rfl⟩
    · exact ⟨t.lamps, t.share, t.announceCheck, by rw [← ht]; rfl⟩
  obtain ⟨lamps, share, check, hrest⟩ := hframe
  refine ⟨lamps, share, check, ?_⟩
  rw [hfault, hrest]
  exact completeAwaits_none .failed ha

/-- R114: a command leaves a drive faulted from a record, the other drives as they were, and the fault recorded. -/
def FaultsDrive (s : State) (c : Instr) (d : Fin 4) (r : Drive) (kind : FaultKind) : Prop :=
  ∃ t, exec c s = .next t ∧ t.drives[d] = faultedDrive r ∧ (∀ j : Fin 4, j ≠ d → t.drives[j] = s.drives[j]) ∧
    ∃ x ∈ t.faults.records, x.kind = kind ∧ x.detail = BitVec.ofNat 8 d.val

theorem faultsDrive_of_event {c : Instr} {body : State → State} {kind : FaultKind} (hr : Ready s)
    (hc : exec c s = event body s) (hb : body s = (s.setDrive d r).driveFault d kind) (hk : kind ≠ .lineOverrun)
    (hs : r.state ≠ .faulted) (ha : NobodyAwaits s (.drive d)) (hn : NothingElseWaits s d) :
    FaultsDrive s c d r kind := by
  obtain ⟨lamps, share, check, hf⟩ :=
    driveFault_frame (s := s.setDrive d r) kind (by rw [setDrive_same]; exact hs) ha hn
  rw [setDrive_same, setDrive_setDrive] at hf
  generalize hu : State.recordFault _ kind d.val = u at hf
  have hw : u.works = [] := by
    rw [← hu]
    exact hr.settled.noWorks
  have hdrives : u.drives = (s.setDrive d (faultedDrive r)).drives := by
    rw [← hu]
    rfl
  refine ⟨_, hc.trans (event_ends (hb.trans hf) (settle_done 0 hw) (by decide)), ?_, fun j hj => ?_,
    NewestRecord.mem_announce ?_ hk⟩
  · rw [announce_drives, hdrives]
    exact setDrive_same d _
  · rw [announce_drives, hdrives]
    exact setDrive_other _ hj
  · rw [← hu]
    exact newest_recordFault _ _ _

/-- An event that changes a drive's record and nothing else. -/
theorem event_setDrive {c : Instr} {body : State → State} (hr : Ready s) (hc : exec c s = event body s)
    (hb : body s = s.setDrive d r) : exec c s = .next (s.setDrive d r) :=
  hc.trans (event_quiet hb ⟨hr.settled.noWorks, hr.settled.noCheck⟩)

/-! ## A count against the arrival band (R108, R109) -/

theorem Drive.shortOfTarget_iff (r : Drive) :
    r.shortOfTarget = true ↔ if r.up then r.position < r.target else r.target < r.position := by
  unfold Drive.shortOfTarget
  split <;> exact decide_eq_true_iff

theorem Drive.runClass_eq (r : Drive) (c : DriveSettings) :
    r.runClass c =
      if r.reversals ≠ 0 ∨ (r.position ≤ r.target + c.approach ∧ r.target ≤ r.position + c.approach) then 0
      else r.speedClass := by
  have hnear : distance r.position r.target ≤ c.approach ↔
      r.position ≤ r.target + c.approach ∧ r.target ≤ r.position + c.approach := by
    unfold distance
    omega
  exact if_congr (or_congr_right hnear) rfl rfl

/-- R108, R109: the position lies in the arrival band. -/
def InBand (r : Drive) (c : DriveSettings) : Prop :=
  r.position ≤ r.target + c.tolerance ∧ r.target ≤ r.position + c.tolerance

theorem inBand_true {c : DriveSettings} (h : InBand r c) : r.inBand c = true := (Drive.inBand_iff r c).2 h

theorem inBand_false {c : DriveSettings} (h : ¬InBand r c) : r.inBand c = false :=
  Bool.eq_false_iff.2 fun hb => h ((Drive.inBand_iff r c).1 hb)

/-- R109: the drive has not yet come to its target, in the direction it drives. -/
def ShortOfTarget (r : Drive) : Prop := if r.up then r.position < r.target else r.target < r.position

section

variable (hb : r.braking = false)
include hb

theorem countInMove_brakes (hin : InBand r s.settings.drives[d]) :
    (s.setDrive d r).countInMove d = s.setDrive d (brakingDrive r s) := by
  unfold State.countInMove
  simp only [setDrive_same, setDrive_settings, setDrive_setDrive, hb, inBand_true hin, if_true, Bool.false_eq_true,
    if_false]
  rfl

theorem countInMove_runs (hin : ¬InBand r s.settings.drives[d]) :
    (s.setDrive d r).countInMove d =
      s.setDrive d { r with classInForce := r.runClass s.settings.drives[d] } := by
  unfold State.countInMove
  simp only [setDrive_same, setDrive_settings, setDrive_setDrive, hb, inBand_false hin, Bool.false_eq_true, if_false]

end

section

variable (hb : r.braking = true)
include hb

theorem countInMove_stays (hin : InBand r s.settings.drives[d]) :
    (s.setDrive d r).countInMove d = s.setDrive d r := by
  unfold State.countInMove
  simp only [setDrive_same, setDrive_settings, hb, inBand_true hin, if_true]

variable (hin : ¬InBand r s.settings.drives[d])
include hin

theorem countInMove_short (hsh : ShortOfTarget r) :
    (s.setDrive d r).countInMove d =
      s.setDrive d (drivingDrive { r with classInForce := 0 } s.settings.drives[d] s) := by
  unfold State.countInMove
  simp only [setDrive_same, setDrive_settings, setDrive_setDrive, hb, inBand_false hin,
    (Drive.shortOfTarget_iff r).2 hsh, if_true, Bool.false_eq_true, if_false]
  rfl

/-- R109: past its target the drive turns, or has turned too often. -/
theorem countInMove_past (hsh : ¬ShortOfTarget r) :
    (s.setDrive d r).countInMove d =
      if r.reversals < 3 then
        s.setDrive d
          (drivingDrive { r with classInForce := 0, up := !r.up, reversals := r.reversals + 1 } s.settings.drives[d] s)
      else (s.setDrive d r).driveFault d .settle := by
  have hpast : r.shortOfTarget = false := Bool.eq_false_iff.2 fun h => hsh ((Drive.shortOfTarget_iff r).1 h)
  unfold State.countInMove
  simp only [setDrive_same, setDrive_settings, setDrive_setDrive, hb, inBand_false hin, hpast, if_true,
    Bool.false_eq_true, if_false]
  rfl

end

/-- R108, R109: the command of a count that has moved the position of a move. -/
theorem countInMove_against_band {c : Instr} {body : State → State} (hr : Ready s) (hc : exec c s = event body s)
    (hb : body s = (s.setDrive d r).countInMove d) (hs : r.state = .moving) :
    let k := s.settings.drives[d]
    let becomes (r' : Drive) : Prop := exec c s = .next (s.setDrive d r')
    (r.braking = false → InBand r k → becomes (brakingDrive r s)) ∧
    (r.braking = false → ¬InBand r k →
      becomes
        { r with
          classInForce :=
            if r.reversals ≠ 0 ∨ (r.position ≤ r.target + k.approach ∧ r.target ≤ r.position + k.approach) then 0
            else r.speedClass }) ∧
    (r.braking = true → InBand r k → becomes r) ∧
    (r.braking = true → ¬InBand r k → ShortOfTarget r → becomes (drivingDrive { r with classInForce := 0 } k s)) ∧
    (r.braking = true → ¬InBand r k → ¬ShortOfTarget r → r.reversals < 3 →
      becomes (drivingDrive { r with classInForce := 0, up := !r.up, reversals := r.reversals + 1 } k s)) ∧
    (r.braking = true → ¬InBand r k → ¬ShortOfTarget r → 3 ≤ r.reversals →
      NobodyAwaits s (.drive d) ∧ NothingElseWaits s d → FaultsDrive s c d r .settle) := by
  intro k becomes
  refine ⟨fun hbr hin => event_setDrive hr hc (hb.trans (countInMove_brakes hbr hin)),
    fun hbr hin => event_setDrive hr hc ?_,
    fun hbr hin => event_setDrive hr hc (hb.trans (countInMove_stays hbr hin)),
    fun hbr hin hsh => event_setDrive hr hc (hb.trans (countInMove_short hbr hin hsh)),
    fun hbr hin hsh hrev => event_setDrive hr hc ?_, fun hbr hin hsh hrev ⟨ha, hn⟩ => ?_⟩
  · rw [hb, countInMove_runs hbr hin, Drive.runClass_eq]
  · rw [hb, countInMove_past hbr hin hsh, if_pos hrev]
  · rw [countInMove_past hbr hin hsh, if_neg (Nat.not_lt.2 hrev)] at hb
    exact faultsDrive_of_event hr hc hb (by decide) (by rw [hs]; decide) ha hn

/-! ## One count (R104, R107) -/

/-- R104: the record of a drive whose encoder lines read new levels. -/
def Drive.withLines (r : Drive) (a b : Bool) : Drive := { r with encA := a, encB := b }

/-- R104: the record with its position moved by one count. -/
def Drive.stepped (r : Drive) (up : Bool) : Drive :=
  { r with position := if up then r.position + 1 else r.position - 1 }

/-- R104: the record with the timers that run restarted. -/
def counted (s : State) (d : Fin 4) (r : Drive) : Drive := r.restartTimers s.settings.drives[d] s.now

theorem takeCount_eq (up : Bool) :
    (s.setDrive d r).takeCount d up =
      if r.state = .homing then
        let travelled := { counted s d r with travel := min 65535 (r.travel + 1) }
        if travelled.travel = 65535 ∧ r.braking = false then (s.setDrive d travelled).driveFault d .limit
        else s.setDrive d travelled
      else if r.homed then
        if r.atEdge up then (s.setDrive d (counted s d r)).driveFault d .limit
        else if r.state = .moving then (s.setDrive d ((counted s d r).stepped up)).countInMove d
        else s.setDrive d ((counted s d r).stepped up)
      else s.setDrive d (counted s d r) := by
  unfold State.takeCount
  simp only [setDrive_same, setDrive_settings, setDrive_setDrive]
  rfl

theorem takeCount_unhomed (up : Bool) (hs : r.state ≠ .homing) (hh : r.homed = false) :
    (s.setDrive d r).takeCount d up = s.setDrive d (counted s d r) := by
  rw [takeCount_eq, if_neg hs, hh]
  rfl

section

variable (up : Bool) (hs : r.state = .homing)
include hs

theorem takeCount_travels (ht : r.travel < 65534) :
    (s.setDrive d r).takeCount d up = s.setDrive d { counted s d r with travel := r.travel + 1 } := by
  have hmin : min 65535 (r.travel + 1) = r.travel + 1 := by omega
  rw [takeCount_eq, if_pos hs, hmin]
  exact if_neg fun h => absurd (h.1 : r.travel + 1 = 65535) (by omega)

/-- R107: at the end of the travel a driving homing run faults, and a braking one stays there. -/
theorem takeCount_travelEnd (ht : 65534 ≤ r.travel) :
    (s.setDrive d r).takeCount d up =
      if r.braking = false then (s.setDrive d { counted s d r with travel := 65535 }).driveFault d .limit
      else s.setDrive d { counted s d r with travel := 65535 } := by
  have hmin : min 65535 (r.travel + 1) = 65535 := by omega
  rw [takeCount_eq, if_pos hs, hmin]
  exact if_congr (and_iff_right rfl) rfl rfl

end

theorem atEdge_true {up : Bool} (h : (up = true → r.position = 65535) ∧ (up = false → r.position = 0)) :
    r.atEdge up = true := by
  cases up
  · exact decide_eq_true (h.2 rfl)
  · exact decide_eq_true (h.1 rfl)

theorem atEdge_false {up : Bool} (h : (up = true → r.position < 65535) ∧ (up = false → 0 < r.position)) :
    r.atEdge up = false := by
  cases up
  · exact decide_eq_false (h.2 rfl).ne'
  · exact decide_eq_false (h.1 rfl).ne

section

variable {up : Bool} (hs : r.state ≠ .homing) (hh : r.homed = true)
include hs hh

theorem takeCount_edge (he : (up = true → r.position = 65535) ∧ (up = false → r.position = 0)) :
    (s.setDrive d r).takeCount d up = (s.setDrive d (counted s d r)).driveFault d .limit := by
  rw [takeCount_eq, if_neg hs, if_pos hh, if_pos (atEdge_true he)]

theorem takeCount_inside (he : (up = true → r.position < 65535) ∧ (up = false → 0 < r.position)) :
    (s.setDrive d r).takeCount d up =
      if r.state = .moving then (s.setDrive d ((counted s d r).stepped up)).countInMove d
      else s.setDrive d ((counted s d r).stepped up) := by
  rw [takeCount_eq, if_neg hs, if_pos hh, atEdge_false he]
  rfl

end

end Sys2Proof.Machine
end

section
/-! Encoder counts (R104, R107 to R109), the switches of a drive (R107, R113), and the end of a halt's brake (R116,
R117). -/

namespace Sys2Proof.Machine

variable {s : State} {d : Fin 4}

theorem watched_of_ready (hr : Ready s) (ht : s.drives[d].state ≠ .track) : s.watched d = true := by
  unfold State.watched
  rw [inShow_of_ready hr, Bool.true_and]
  exact bne_iff_ne.2 ht

/-! ## Encoder counts -/

theorem exec_encoderCount (a b : Bool) (hr : Ready s) (ht : s.drives[d].state ≠ .track) :
    exec (.encoderCount d a b) s = event (fun t => t.readEncoder d a b) s :=
  if_pos (watched_of_ready hr ht)

/-- R104: a change of both lines or of none is no count. -/
theorem readEncoder_still {a b : Bool} (h : ((s.drives[d].encA != a) != (s.drives[d].encB != b)) = false) :
    s.readEncoder d a b = s.setDrive d (s.drives[d].withLines a b) :=
  if_neg (Bool.eq_false_iff.1 h)

/-- R104: a change of one line is one count. -/
theorem readEncoder_counts {a b : Bool} (h : ((s.drives[d].encA != a) != (s.drives[d].encB != b)) = true) :
    s.readEncoder d a b =
      (s.setDrive d (s.drives[d].withLines a b)).takeCount d
        (countsUp s.settings.drives[d].reversed (aLeads s.drives[d].encA a b)) :=
  if_pos h

/-- Settles O43: a count by the drive's state, and in a move by the arrival band. -/
theorem countsMoveDrive : Obligations.CountsMoveDrive := by
  intro s d a b hr ht
  dsimp only
  have hexec := exec_encoderCount a b hr ht
  generalize hup : countsUp s.settings.drives[d].reversed (aLeads s.drives[d].encA a b) = up
  have hcount (h1 : ((s.drives[d].encA != a) != (s.drives[d].encB != b)) = true) :
      s.readEncoder d a b = (s.setDrive d (s.drives[d].withLines a b)).takeCount d up := by
    rw [readEncoder_counts h1, hup]
  have hunhomed := takeCount_unhomed (s := s) (d := d) (r := s.drives[d].withLines a b) up
  have htravels := takeCount_travels (s := s) (d := d) (r := s.drives[d].withLines a b) up
  have htravelEnd := takeCount_travelEnd (s := s) (d := d) (r := s.drives[d].withLines a b) up
  have hedge := takeCount_edge (s := s) (d := d) (r := s.drives[d].withLines a b) (up := up)
  have hinside := takeCount_inside (s := s) (d := d) (r := s.drives[d].withLines a b) (up := up)
  have hband := countInMove_against_band (d := d) (r := (counted s d (s.drives[d].withLines a b)).stepped up) hr hexec
  dsimp only [counted, Drive.withLines, Drive.restartTimers] at hcount hunhomed htravels htravelEnd hedge
  dsimp only [counted, Drive.withLines, Drive.restartTimers, Drive.stepped, InBand, ShortOfTarget] at hinside hband
  refine ⟨fun h1 => ?_, fun h1 hh hs => ?_, fun h1 hh hs hm hin => ?_, fun h1 hh hs hf he ⟨ha, hn⟩ => ?_,
    fun h1 hs htr => ?_, fun h1 hs htr => ⟨fun hb ⟨ha, hn⟩ => ?_, fun hb => ?_⟩, fun h1 hh hs hin => ?_⟩
  · exact event_setDrive hr hexec (readEncoder_still h1)
  · exact event_setDrive hr hexec ((hcount h1).trans (hunhomed hs hh))
  · exact event_setDrive hr hexec ((hcount h1).trans ((hinside hs hh hin).trans (if_neg hm)))
  · exact faultsDrive_of_event hr hexec ((hcount h1).trans (hedge hs hh he)) (by decide) hf ha hn
  · exact event_setDrive hr hexec ((hcount h1).trans (htravels hs htr))
  · exact faultsDrive_of_event hr hexec ((hcount h1).trans ((htravelEnd hs htr).trans (if_pos hb))) (by decide)
      (by rw [hs]; decide) ha hn
  · exact event_setDrive hr hexec ((hcount h1).trans ((htravelEnd hs htr).trans (if_neg (by rw [hb]; decide))))
  · exact hband ((hcount h1).trans ((hinside (by rw [hs]; decide) hh hin).trans (if_pos hs))) hs

/-! ## Switches (R107, R113) -/

theorem exec_switchClose_closed {which : Switch} (h : s.drives[d].isClosed which = true) :
    exec (.switchClose d which) s = .next s := by
  refine if_neg ?_
  rw [h, Bool.not_true, Bool.and_false]
  decide

theorem exec_switchClose {which : Switch} (hr : Ready s) (ht : s.drives[d].state ≠ .track)
    (h : s.drives[d].isClosed which = false) :
    exec (.switchClose d which) s = event (fun t => t.closeSwitch d which) s := by
  refine if_pos ?_
  rw [watched_of_ready hr ht, h]
  rfl

theorem exec_switchOpen (which : Switch) (hr : Ready s) (ht : s.drives[d].state ≠ .track) :
    exec (.switchOpen d which) s = .next (s.setDrive d (s.drives[d].withSwitch which false)) :=
  if_pos (watched_of_ready hr ht)

theorem withSwitch_state (r : Drive) (which : Switch) (closed : Bool) : (r.withSwitch which closed).state = r.state := by
  cases which <;> rfl

/-- R113: each switch has its own field of the record. -/
theorem withSwitch_eq (r : Drive) (which : Switch) (closed : Bool) :
    r.withSwitch which closed =
      if which = .homeSwitch then { r with homeClosed := closed } else { r with endClosed := closed } := by
  cases which <;> rfl

theorem isClosed_eq (r : Drive) (which : Switch) :
    r.isClosed which = if which = .homeSwitch then r.homeClosed else r.endClosed := by
  cases which <;> rfl

/-- R113: a closing that has no further effect: of a drive at rest, or of a homing run that brakes already. -/
theorem closeSwitch_noted {which : Switch}
    (h : (s.drives[d].state ≠ .homing ∧ s.drives[d].state ≠ .moving) ∨
      (s.drives[d].state = .homing ∧ which = .homeSwitch ∧ s.drives[d].braking = true)) :
    s.closeSwitch d which = s.setDrive d (s.drives[d].withSwitch which true) := by
  unfold State.closeSwitch
  simp only [withSwitch_state]
  rcases h with ⟨hh, hm⟩ | ⟨hh, rfl, hb⟩
  · split
    · exact absurd ‹_› hh
    · exact absurd ‹_› hh
    · exact absurd ‹_› hm
    · rfl
  · simp only [hh]
    exact if_pos hb

/-- R107: the home switch brakes a homing run. -/
theorem closeSwitch_brakes (hs : s.drives[d].state = .homing) (hb : s.drives[d].braking = false) :
    s.closeSwitch d .homeSwitch = s.setDrive d (brakingDrive (s.drives[d].withSwitch .homeSwitch true) s) := by
  unfold State.closeSwitch
  simp only [withSwitch_state, hs, setDrive_setDrive]
  refine if_neg ?_
  show ¬s.drives[d].braking = true
  rw [hb]
  decide

/-- R113: any other closing of a running drive is a LIMIT fault. -/
theorem closeSwitch_faults {which : Switch}
    (h : s.drives[d].state = .moving ∨ (s.drives[d].state = .homing ∧ which = .endSwitch)) :
    s.closeSwitch d which = (s.setDrive d (s.drives[d].withSwitch which true)).driveFault d .limit := by
  unfold State.closeSwitch
  simp only [withSwitch_state]
  rcases h with hs | ⟨hs, rfl⟩
  · simp only [hs]
  · simp only [hs]

/-! ## The brake of a halt (R116, R117) -/

theorem exec_haltBrakeEnd {e : Tick} (hr : Ready s) (hb : s.drives[d].brakeUntil = some e) (he : e ≤ s.now) :
    exec (.haltBrakeEnd d) s = .next (s.setDrive d { s.drives[d] with brakeUntil := none }) := by
  refine if_pos ?_
  rw [inShow_of_ready hr, State.brakeDue, hb]
  exact decide_eq_true he

/-- Settles O46: a closing by the drive's state and by the switch, the opening, and the end of the brake. -/
theorem switchesAndHaltBrake : Obligations.SwitchesAndHaltBrake := by
  intro s d which hr
  dsimp only
  simp only [← withSwitch_eq, ← isClosed_eq]
  refine ⟨fun ht => ⟨exec_switchClose_closed,
    fun hw hs => event_setDrive hr (exec_switchClose hr ht hw) (closeSwitch_noted hs),
    fun hw hs hh hb => ?_, fun hw hs ha hn => ?_, exec_switchOpen which hr ht⟩,
    fun e hb he => exec_haltBrakeEnd hr hb he⟩
  · subst hh
    exact event_setDrive hr (exec_switchClose hr ht hw) (closeSwitch_brakes hs hb)
  · have hrun : (s.drives[d].withSwitch which true).state ≠ .faulted := by
      rw [withSwitch_state]
      rcases hs with hs | ⟨hs, -⟩ <;> rw [hs] <;> decide
    obtain ⟨t, hx, hd, -, hrec⟩ :=
      faultsDrive_of_event hr (exec_switchClose hr ht hw) (closeSwitch_faults hs) (by decide) hrun ha hn
    exact ⟨t, hx, by rw [hd]; rfl, by rw [hd]; rfl, hrec⟩

end Sys2Proof.Machine
end

section
/-! What the two invariants of R149 read of a state, and the operations that touch none of it: frames handed over (R138,
R139), the narration player (R85 to R99), and the reports to the Scene Engine (R10, R15, R19). -/

namespace Sys2Proof.Machine

variable {s t u : State}

/-! ## The segment (R119) -/

/-- The fields that `SegmentSafe` reads, and the halt state. -/
def State.segmentFields (s : State) : Option HaltReason × Bool × TrackState × List AdmissionEntry :=
  (s.halt, s.track.running, s.track.state, s.share.admissions)

/-- An operation that neither halts nor resumes, and after which the segment is safe if it was safe before. -/
structure KeepsSegment (s t : State) : Prop where
  halt : t.halt = s.halt
  safe : SegmentSafe s → SegmentSafe t

theorem inHandover_congr (h : t.track.state = s.track.state) : t.inHandover = s.inHandover := by
  unfold State.inHandover
  rw [h]

theorem asking_congr (h : t.track.state = s.track.state) : t.asking = s.asking := by
  unfold State.asking
  rw [h]

namespace KeepsSegment

theorem refl (s : State) : KeepsSegment s s := ⟨rfl, id⟩

theorem trans (h : KeepsSegment s t) (h' : KeepsSegment t u) : KeepsSegment s u :=
  ⟨h'.halt.trans h.halt, fun hs => h'.safe (h.safe hs)⟩

/-- An update of the track and of the admission list that runs nothing, moves no block and adds no request. -/
theorem fewer (hh : t.halt = s.halt) (hr : t.track.running = s.track.running) (hst : t.track.state = s.track.state)
    (ha : ∀ e ∈ t.share.admissions, e ∈ s.share.admissions) : KeepsSegment s t := by
  refine ⟨hh, fun hs => ⟨fun h => ?_, fun e he hk => ?_, fun e he hk => ?_⟩⟩
  · rw [inHandover_congr hst]
    exact hs.running (hr ▸ h)
  · rw [inHandover_congr hst]
    exact hs.starting e (ha e he) hk
  · rw [hst]
    exact hs.asking e (ha e he) hk

theorem same (h : t.segmentFields = s.segmentFields) : KeepsSegment s t := by
  simp only [State.segmentFields, Prod.mk.injEq] at h
  obtain ⟨hh, hr, hst, ha⟩ := h
  exact fewer hh hr hst fun e he => ha ▸ he

/-- An operation after an update that touches none of these. -/
theorem after (h : KeepsSegment t u) (hf : t.segmentFields = s.segmentFields) : KeepsSegment s u := (same hf).trans h

theorem foldl {α : Type} {f : State → α → State} (hf : ∀ t a, KeepsSegment t (f t a)) :
    ∀ (l : List α) (s : State), KeepsSegment s (l.foldl f s)
  | [], s => refl s
  | a :: l, s => (hf s a).trans (foldl hf l (f s a))

end KeepsSegment

/-! ## The station at rest (R149) -/

/-- The drive neither runs nor asks to run. -/
def Drive.Still (r : Drive) : Prop := r.state ≠ .moving ∧ r.state ≠ .homing ∧ r.state ≠ .pendingPower

/-- What R149 asks of a HALTED station: no scene, no narration, no drive and no segment runs or asks to run. -/
structure AtRest (s : State) : Prop where
  slots : AllFree s
  idle : s.player.state = .idle
  queue : s.player.queue = []
  drives : ∀ d : Fin 4, s.drives[d].Still
  stopped : s.track.running = false
  unasked : s.asking = false

theorem haltSafe_iff : HaltSafe s ↔ (s.halted = true → AtRest s) := by
  constructor
  · intro h hh
    obtain ⟨hidle, hqueue⟩ := h.player hh
    obtain ⟨hstopped, hunasked⟩ := h.track hh
    exact ⟨h.slots hh, hidle, hqueue, h.drives hh, hstopped, hunasked⟩
  · intro h
    exact ⟨fun hh => (h hh).slots, fun hh => ⟨(h hh).idle, (h hh).queue⟩, fun hh => (h hh).drives,
      fun hh => ⟨(h hh).stopped, (h hh).unasked⟩⟩

/-- The fields that `AtRest` reads beside those of the track. -/
def State.restFields (s : State) : Vector Slot 4 × PlayerState × List SayEntry × Vector Drive 4 :=
  (s.engine.slots, s.player.state, s.player.queue, s.drives)

theorem AtRest.congr (h : AtRest s) (hf : t.restFields = s.restFields) (hr : t.track.running = s.track.running)
    (hst : t.track.state = s.track.state) : AtRest t := by
  simp only [State.restFields, Prod.mk.injEq] at hf
  obtain ⟨hslots, hplayer, hqueue, hdrives⟩ := hf
  refine ⟨fun k => ?_, hplayer.trans h.idle, hqueue.trans h.queue, fun d => ?_, hr.trans h.stopped,
    (asking_congr hst).trans h.unasked⟩
  · rw [hslots]
    exact h.slots k
  · rw [hdrives]
    exact h.drives d

/-- As `KeepsSegment`, and a HALTED station at rest stays at rest. -/
structure KeepsRest (s t : State) : Prop extends KeepsSegment s t where
  rest : s.halted = true → AtRest s → AtRest t

theorem KeepsSegment.halted (h : KeepsSegment s t) : t.halted = s.halted := by
  unfold State.halted
  rw [h.halt]

/-- What no HALTED station at rest does. -/
theorem KeepsSegment.toRest (h : KeepsSegment s t) (hn : s.halted = true → ¬AtRest s) : KeepsRest s t :=
  ⟨h, fun hh hr => absurd hr (hn hh)⟩

namespace KeepsRest

theorem refl (s : State) : KeepsRest s s := ⟨.refl s, fun _ => id⟩

theorem trans (h : KeepsRest s t) (h' : KeepsRest t u) : KeepsRest s u :=
  ⟨h.toKeepsSegment.trans h'.toKeepsSegment, fun hh hr => h'.rest (h.halted.trans hh) (h.rest hh hr)⟩

theorem same (h : t.segmentFields = s.segmentFields) (hf : t.restFields = s.restFields) : KeepsRest s t := by
  refine ⟨.same h, fun _ hr => ?_⟩
  simp only [State.segmentFields, Prod.mk.injEq] at h
  obtain ⟨-, hrun, hst, -⟩ := h
  exact hr.congr hf hrun hst

/-- An operation after an update that touches none of these. -/
theorem after (h : KeepsRest t u) (hs : t.segmentFields = s.segmentFields) (hf : t.restFields = s.restFields) :
    KeepsRest s u := (same hs hf).trans h

end KeepsRest

/-! ## Frames handed over and reports (R10, R15, R19, R138, R139) -/

namespace SendsOnly

theorem refl (s : State) : SendsOnly s s := ⟨_, _, _, _, _, _, rfl⟩

theorem halt (h : SendsOnly s t) : t.halt = s.halt := by obtain ⟨_, _, _, _, _, _, rfl⟩ := h; rfl

theorem keepsSegment (h : SendsOnly s t) : KeepsSegment s t := by
  obtain ⟨_, _, _, _, _, _, rfl⟩ := h
  exact .same rfl

theorem asking (h : SendsOnly s t) : t.asking = s.asking := asking_congr (congrArg Track.state h.track)

theorem keepsRest (h : SendsOnly s t) (hr : AtRest s → AtRest t) : KeepsRest s t := ⟨h.keepsSegment, fun _ => hr⟩

/-- What a player at work does. -/
theorem keepsRest_of_busy (h : SendsOnly s t) (hp : s.player.state ≠ .idle) : KeepsRest s t :=
  h.keepsRest fun hr => absurd hr.idle hp

end SendsOnly

theorem AtRest.unsettling (h : AtRest s) : s.player.state ≠ .settling := by
  rw [h.idle]
  decide

theorem sendsOnly_raise (s : State) (ws : List Work) : SendsOnly s (s.raise ws) := ⟨_, _, _, _, _, _, rfl⟩

theorem sendsOnly_setRun (s : State) (k : Fin 4) (run : Option Running) : SendsOnly s (s.setRun k run) :=
  ⟨_, _, _, _, _, _, rfl⟩

theorem keepsRest_raise (s : State) (ws : List Work) : KeepsRest s (s.raise ws) := .same rfl rfl

theorem keepsRest_recordFault (s : State) (kind : FaultKind) (detail : Nat) : KeepsRest s (s.recordFault kind detail) :=
  .same rfl rfl

theorem keepsRest_setTxQueue (s : State) (q : List TxEntry) : KeepsRest s (s.setTxQueue q) := .same rfl rfl

theorem keepsRest_reportSay (s : State) (e : SayEntry) (h : Handle) : KeepsRest s (s.reportSay e h) :=
  (sendsOnly_reportSay s e h).keepsRest fun hr => by rwa [reportSay_free hr.slots]

theorem keepsRest_completeAwaits (s : State) (subject : Subject) (out : AwaitOutcome) :
    KeepsRest s (s.completeAwaits subject out) :=
  (completeAwaits_reports s subject out).sendsOnly.keepsRest fun hr => by
    rwa [completeAwaits_none out (hr.slots.awaits subject)]

theorem keepsRest_lateOutcome (s : State) (subject : Subject) (r : Requester) :
    KeepsRest s (s.lateOutcome subject r) := by
  obtain ⟨h, -⟩ | ⟨h, -⟩ := lateOutcome_cases s subject r
  · rw [h]
    exact .refl s
  · rw [h]
    exact keepsRest_raise s _

theorem keepsRest_enterTx (s : State) (e : TxEntry) : KeepsRest s (s.enterTx e) :=
  (sendsOnly_enterTx s e).keepsRest fun hr => by
    obtain ⟨q, f, p, h, hp, -⟩ := enterTx_free hr.slots e
    rw [h, hp hr.unsettling]
    exact hr.congr rfl rfl rfl

theorem keepsRest_handOverFor (s : State) (claim : Nat) (body : FrameBody) :
    KeepsRest s (s.handOverFor claim body) := by
  unfold State.handOverFor
  simp only []
  split
  · split
    · exact .same rfl rfl
    · split
      · exact keepsRest_setTxQueue s _
      · exact keepsRest_enterTx s _
  · exact keepsRest_enterTx s _

theorem keepsRest_handOver (s : State) (body : FrameBody) : KeepsRest s (s.handOver body) :=
  keepsRest_handOverFor s 0 body

theorem sendsOnly_handOver (s : State) (body : FrameBody) : SendsOnly s (s.handOver body) :=
  sendsOnly_handOverFor s 0 body

/-! ## The narration player (R85 to R99) -/

theorem sendsOnly_endClaim (s : State) : SendsOnly s s.endClaim := by
  unfold State.endClaim
  split
  · exact (sendsOnly_withPlayer s _).trans (sendsOnly_returnSay _ _)
  · exact sendsOnly_withPlayer s _

theorem sendsOnly_checkStart (s : State) : SendsOnly s s.checkStart := by
  unfold State.checkStart
  split
  · exact .refl s
  · split
    · exact ((sendsOnly_withPlayer s _).trans (sendsOnly_reportSay _ _ _)).trans (sendsOnly_handOverFor _ _ _)
    · exact .refl s

theorem AtRest.checkStart (h : AtRest s) : AtRest s.checkStart := by rwa [checkStart_empty h.queue]

theorem keepsRest_checkStart (s : State) : KeepsRest s s.checkStart := (sendsOnly_checkStart s).keepsRest .checkStart

theorem sendsOnly_retryClaim (s : State) : SendsOnly s s.retryClaim := by
  unfold State.retryClaim
  split
  · exact (sendsOnly_withPlayer s _).trans (sendsOnly_checkStart _)
  · exact .refl s

theorem keepsRest_retryClaim (s : State) : KeepsRest s s.retryClaim := by
  unfold State.retryClaim
  split
  · exact .after (keepsRest_checkStart _) rfl rfl
  · exact .refl s

theorem sendsOnly_backOff (s : State) : SendsOnly s s.backOff := by
  unfold State.backOff
  simp only []
  split
  · exact ((sendsOnly_setTxQueue s _).trans (sendsOnly_endClaim _)).trans (sendsOnly_checkStart _)
  · exact ((sendsOnly_handOver s _).trans (sendsOnly_endClaim _)).trans (sendsOnly_checkStart _)

/-- R93: a settling player alone backs off. -/
theorem keepsRest_backOff (h : s.player.state = .settling) : KeepsRest s s.backOff :=
  (sendsOnly_backOff s).keepsRest_of_busy (by rw [h]; decide)

theorem keepsRest_playerLineChanged (s : State) : KeepsRest s s.playerLineChanged := by
  unfold State.playerLineChanged
  split
  · exact keepsRest_checkStart s
  · split
    · rename_i h
      exact keepsRest_backOff h.1
    · exact .refl s

theorem keepsRest_setVoice (s : State) (n : Nat) (f : VoiceEntry → VoiceEntry) : KeepsRest s (s.setVoice n f) :=
  .same rfl rfl

theorem keepsRest_sendSample (s : State) : KeepsRest s s.sendSample := by
  obtain ⟨x, n, h⟩ := sendSample_frame s
  rw [h]
  exact .same rfl rfl

theorem sendsOnly_sendSample (s : State) : SendsOnly s s.sendSample := by
  obtain ⟨x, n, h⟩ := sendSample_frame s
  rw [h]
  exact sendsOnly_withPlayer s _

theorem sendsOnly_endWindow (s : State) : SendsOnly s s.endWindow := by
  unfold State.endWindow State.startPlaying
  simp only []
  split
  · split
    · exact ((sendsOnly_withPlayer s _).trans (sendsOnly_sendSample _)).trans (sendsOnly_reportSay _ _ _)
    · exact (sendsOnly_withPlayer s _).trans (sendsOnly_sendSample _)
  · exact sendsOnly_backOff s

theorem sendsOnly_endClip (s : State) : SendsOnly s s.endClip := by
  unfold State.endClip
  simp only []
  refine SendsOnly.trans ?_ (sendsOnly_raise _ _)
  have hsent := (sendsOnly_withPlayer s { s.player with audioOutput := 0 }).trans (sendsOnly_handOver _ .talkEnd)
  split
  · exact (hsent.trans (sendsOnly_withPlayer _ _)).trans (sendsOnly_reportSay _ _ _)
  · exact hsent.trans (sendsOnly_withPlayer _ _)

theorem sendsOnly_endFadeOut (s : State) : SendsOnly s s.endFadeOut :=
  (((sendsOnly_withPlayer s { s.player with audioOutput := 0 }).trans (sendsOnly_handOver _ .talkEnd)).trans
    (sendsOnly_withPlayer _ _)).trans (sendsOnly_checkStart _)

theorem sendsOnly_cancelNarration (s : State) (k : Fin 4) (mark : BitVec 8) :
    SendsOnly s (s.cancelNarration k mark) := by
  obtain ⟨p, h⟩ := cancelNarration_frame s k mark
  rw [h]
  exact sendsOnly_withPlayer s p

theorem sendsOnly_haltNarration (s : State) : SendsOnly s s.haltNarration := by
  unfold State.haltNarration
  simp only []
  split
  · exact (sendsOnly_withPlayer s _).trans (sendsOnly_withPlayer _ _)
  · exact ((sendsOnly_handOver s _).trans (sendsOnly_withPlayer _ _)).trans (sendsOnly_withPlayer _ _)

theorem sendsOnly_enqueueSay (s : State) (e : SayEntry) : SendsOnly s (s.enqueueSay e) :=
  (sendsOnly_withPlayer s _).trans (sendsOnly_reportSay _ _ _)

theorem sendsOnly_addSay (s : State) (e : SayEntry) : SendsOnly s (s.addSay e) :=
  (sendsOnly_withPlayer s _).trans (sendsOnly_enqueueSay _ _)

theorem sendsOnly_acceptSay (s : State) (e : SayEntry) : SendsOnly s (s.acceptSay e) := by
  unfold State.acceptSay
  split
  · exact (sendsOnly_withPlayer s _).trans (sendsOnly_enqueueSay _ _)
  · split
    · exact sendsOnly_addSay s e
    · split
      · exact ((sendsOnly_withPlayer s _).trans (sendsOnly_reportSay _ _ _)).trans (sendsOnly_addSay _ _)
      · exact sendsOnly_addSay s e

end Sys2Proof.Machine
end

section
/-! The segment through an admission pass and a recomputation (R63 to R66, R119), and through fades and drive events. -/

namespace Sys2Proof.Machine

variable {s t u : State}

/-! ## A pass of the admission list (R65, R66) -/

/-- The block is where the entry, if it is a request of the segment, asks for it (R70, R72). -/
structure Startable (s : State) (e : AdmissionEntry) : Prop where
  starting : e.kind = .segmentStart → e.drive = 3 ∧ s.inHandover = true
  asking : e.kind = .segmentSend → e.drive = 3 ∧ s.asking = true

theorem SegmentSafe.startable (h : SegmentSafe s) {e : AdmissionEntry} (he : e ∈ s.share.admissions) :
    Startable s e where
  starting := h.starting e he
  asking hk := (h.asking e he hk).imp_right fun ha => asking_iff.2 (.inl ha)

section

variable {e x : AdmissionEntry}

theorem startEntry_halt : (s.startEntry e).halt = s.halt := by
  obtain ⟨-, -, h⟩ | ⟨-, _, -, h⟩ | ⟨-, h⟩ | ⟨-, h⟩ := startEntry_cases s e
  · rw [h]
  · rw [h]; rfl
  · exact h.halt
  · rw [h]; rfl

theorem startedEntry_running_eq :
    (startedEntry s e).track.running = (s.track.running || decide (e.kind = .segmentStart)) := startEntry_running

theorem startedEntry_track_state (hk : e.kind ≠ .segmentSend) :
    (startedEntry s e).track.state = s.track.state := startEntry_track_state hk

/-- R121: the send of the segment moves the block from one phase of ASKING to the other. -/
theorem startedEntry_inHandover (h : Startable s e) : (startedEntry s e).inHandover = s.inHandover := by
  by_cases hk : e.kind = .segmentSend
  · have hs : s.inHandover = false := Bool.eq_false_iff.2 fun hh =>
      Bool.false_ne_true ((not_asking_of_inHandover hh).symm.trans (h.asking hk).2)
    rw [hs]
    unfold State.inHandover
    rw [startedEntry_asked hk]
    rfl
  · exact inHandover_congr (startedEntry_track_state hk)

theorem startedEntry_asking (h : Startable s e) : (startedEntry s e).asking = s.asking := by
  by_cases hk : e.kind = .segmentSend
  · rw [(h.asking hk).2]
    exact asking_iff.2 (.inr (startedEntry_asked hk))
  · exact asking_congr (startedEntry_track_state hk)

theorem Startable.startedEntry (h : Startable s e) (hx : Startable s x) : Startable (startedEntry s e) x where
  starting hk := by
    rw [startedEntry_inHandover h]
    exact hx.starting hk
  asking hk := by
    rw [startedEntry_asking h]
    exact hx.asking hk

theorem SegmentSafe.startedEntry (hs : SegmentSafe s) (h : Startable s e) : SegmentSafe (startedEntry s e) where
  running hr := by
    rw [startedEntry_running_eq, Bool.or_eq_true, decide_eq_true_eq] at hr
    rw [startedEntry_inHandover h]
    exact hr.elim hs.running fun hk => (h.starting hk).2
  starting x hx hk := by
    rw [startedEntry_inHandover h]
    exact hs.starting x (startedEntry_keeps.list x hx) hk
  asking x hx hk := by
    obtain ⟨h3, hst⟩ := hs.asking x (startedEntry_keeps.list x hx) hk
    rw [startedEntry_admissions, List.mem_filter, bne_iff_ne] at hx
    exact ⟨h3, (startedEntry_track_state fun hke => hx.2 (h3.trans (h.asking hke).1.symm)).trans hst⟩

theorem testEntries_halt : ∀ (es : List AdmissionEntry) (s : State), (State.testEntries es s).halt = s.halt
  | [], _ => rfl
  | e :: es, s => by
    unfold State.testEntries
    split
    · rw [testEntries_halt es, startEntry_halt]
      rfl
    · exact testEntries_halt es s

theorem SegmentSafe.testEntries : ∀ {es : List AdmissionEntry} {s : State}, SegmentSafe s →
    (∀ e ∈ es, Startable s e) → SegmentSafe (State.testEntries es s)
  | [], _, h, _ => h
  | e :: es, s, h, hes => by
    have he := hes e List.mem_cons_self
    have hrest := fun x hx => hes x (List.mem_cons_of_mem _ hx)
    by_cases hfit : s.startedDemand + e.watts ≤ s.share.allowance
    · rw [testEntries_fits hfit]
      exact (h.startedEntry he).testEntries fun x hx => he.startedEntry (hrest x hx)
    · rw [testEntries_waits hfit]
      exact h.testEntries hrest

end

/-! ## Recomputation (R63) -/

theorem keepsSegment_testAdmissions (s : State) : KeepsSegment s s.testAdmissions := by
  unfold State.testAdmissions
  split
  · exact .refl s
  · exact ⟨testEntries_halt _ s, fun h => h.testEntries fun _ he => h.startable he⟩

theorem keepsSegment_recomputeOnce (s : State) : KeepsSegment s s.recomputeOnce := by
  have hformed : KeepsSegment s s.formAllowance := .same rfl
  have hhanded : KeepsSegment s.formAllowance.testAdmissions s.recomputeOnce := .same rfl
  exact (hformed.trans (keepsSegment_testAdmissions _)).trans hhanded

theorem keepsSegment_setDrive (s : State) (d : Fin 4) (r : Drive) : KeepsSegment s (s.setDrive d r) := .same rfl

theorem keepsSegment_homeAtOnce (s : State) (d : Fin 4) : KeepsSegment s (s.homeAtOnce d) :=
  (keepsSegment_setDrive s d _).trans (keepsRest_completeAwaits _ _ _).toKeepsSegment

theorem keepsSegment_recomputeUpTo : ∀ (n : Nat) (ending : List (Fin 4)) (s : State),
    KeepsSegment s (State.recomputeUpTo n ending s)
  | 0, _, s => .refl s
  | n + 1, ending, s => by
    unfold State.recomputeUpTo
    simp only []
    split
    · exact keepsSegment_recomputeOnce s
    · exact ((keepsSegment_recomputeOnce s).trans (keepsSegment_homeAtOnce _ _)).trans
        (keepsSegment_recomputeUpTo n _ _)

/-- R73: no recomputation starts anything while HALTED. -/
theorem keepsRest_recompute (s : State) : KeepsRest s s.recompute where
  toKeepsSegment := keepsSegment_recomputeUpTo 5 [] s
  rest hh hr := by
    obtain ⟨lamps, share, h, -⟩ := recompute_frame (.inl hh)
    rw [h]
    exact hr.congr rfl rfl rfl

/-- A list that only loses entries. -/
theorem keepsRest_dropEntry (s : State) (d : Fin 4) : KeepsRest s (s.dropEntry d) where
  toKeepsSegment := .fewer rfl rfl rfl fun _ he => List.mem_of_mem_filter he
  rest _ hr := hr.congr rfl rfl rfl

theorem keepsSegment_enterAdmission {kind : RequestKind} {d : Fin 4}
    (hstart : kind = .segmentStart → d = 3 ∧ s.inHandover = true)
    (hsend : kind = .segmentSend → d = 3 ∧ s.track.state = .askingPower) :
    KeepsSegment s (s.enterAdmission kind d) := by
  refine KeepsSegment.trans ?_ (keepsRest_recompute _).toKeepsSegment
  refine ⟨rfl, fun h => ⟨h.running, fun e he hk => ?_, fun e he hk => ?_⟩⟩
  · obtain he | rfl := List.mem_append.1 he |>.imp_right List.mem_singleton.1
    · exact h.starting e he hk
    · exact hstart hk
  · obtain he | rfl := List.mem_append.1 he |>.imp_right List.mem_singleton.1
    · exact h.asking e he hk
    · exact hsend hk

theorem keepsSegment_driveRun (s : State) (d : Fin 4) : KeepsSegment s (s.enterAdmission .driveRun d) :=
  keepsSegment_enterAdmission (fun h => nomatch h) (fun h => nomatch h)

theorem keepsRest_handOverLoad (s : State) : KeepsRest s s.handOverLoad :=
  KeepsRest.after (keepsRest_handOver _ _) rfl rfl

theorem keepsRest_announce (s : State) : KeepsRest s s.announce := by
  obtain ⟨la, q, held, fl, h, -⟩ := announce_frame s
  rw [h]
  exact .same rfl rfl

/-! ## Lamps (R43 to R53) -/

theorem keepsRest_lampChanged (s : State) : KeepsRest s s.lampChanged := by
  unfold State.lampChanged
  split
  · exact .same rfl rfl
  · exact keepsRest_recompute s

theorem keepsRest_startFade (s : State) (c : Fin 12) (target steps : Nat) (by_ : Option Requester) :
    KeepsRest s (s.startFade c target steps by_) := by
  unfold State.startFade
  simp only []
  split
  · have h := KeepsRest.after (s := s)
      (keepsRest_lampChanged (s.setLamp c (s.lamps[c].startFade target steps by_ s.now))) rfl rfl
    split
    · exact h.trans (keepsRest_completeAwaits _ _ _)
    · exact h
  · exact .refl s

theorem keepsRest_takeFadeStep (s : State) (c : Fin 12) : KeepsRest s (s.takeFadeStep c) := by
  unfold State.takeFadeStep
  simp only []
  split
  · exact .same rfl rfl
  · exact .after ((keepsRest_lampChanged _).trans (keepsRest_completeAwaits _ _ _)) rfl rfl

/-- R51: no idle fade starts while HALTED. -/
theorem keepsRest_idleDimming (s : State) : KeepsRest s s.idleDimming := by
  unfold State.idleDimming
  split
  · exact .refl s
  · rename_i hh
    refine (KeepsSegment.foldl (fun t c => ?_) _ s).toRest fun h => absurd h hh
    split
    · exact (keepsRest_startFade _ _ _ _ _).toKeepsSegment
    · exact .refl t

theorem keepsSegment_haltFades (s : State) : KeepsSegment s s.haltFades :=
  .foldl (fun _ _ => (keepsRest_startFade _ _ _ _ _).toKeepsSegment) _ s

/-! ## Drives (R104 to R117) -/

section

variable {d : Fin 4} {r : Drive}

theorem keepsRest_setDrive (h : s.drives[d].Still → r.Still) : KeepsRest s (s.setDrive d r) where
  toKeepsSegment := .same rfl
  rest _ hr := by
    refine ⟨hr.slots, hr.idle, hr.queue, fun j => ?_, hr.stopped, hr.unasked⟩
    by_cases hj : j = d
    · subst hj
      rw [setDrive_same]
      exact h (hr.drives j)
    · rw [setDrive_other _ hj]
      exact hr.drives j

theorem Drive.Still.congr {p : Drive} (h : p.Still) (hs : r.state = p.state) : r.Still := by
  unfold Drive.Still
  rw [hs]
  exact h

/-- An update of a drive's record that leaves its state alone. -/
theorem keepsRest_setDrive_state (h : r.state = s.drives[d].state) : KeepsRest s (s.setDrive d r) :=
  keepsRest_setDrive fun hp => hp.congr h

/-- An operation after such an update. -/
theorem KeepsRest.after_setDrive (h : KeepsRest (s.setDrive d r) u) (hs : r.state = s.drives[d].state) :
    KeepsRest s u :=
  (keepsRest_setDrive_state hs).trans h

theorem still_of_state (h : r.state = .idle ∨ r.state = .unhomed ∨ r.state = .faulted) : r.Still := by
  unfold Drive.Still
  obtain h | h | h := h <;> rw [h] <;> decide

theorem unstarted_still (r : Drive) : r.unstarted.Still := by
  refine still_of_state ?_
  unfold Drive.unstarted
  by_cases h : r.pending = some .home
  · exact .inr (.inl (if_pos h))
  · exact .inl (if_neg h)

variable (s d)

theorem keepsRest_driveArrives : KeepsRest s (s.driveArrives d) :=
  ((keepsRest_setDrive fun _ => still_of_state (.inl rfl)).trans (keepsRest_recompute _)).trans
    (keepsRest_completeAwaits _ _ _)

theorem keepsRest_driveFault (kind : FaultKind) : KeepsRest s (s.driveFault d kind) := by
  unfold State.driveFault
  simp only []
  split
  · exact .refl s
  · refine KeepsRest.trans ?_ ((keepsRest_recordFault _ _ _).trans (keepsRest_completeAwaits _ _ _))
    have h : KeepsRest s ((s.setDrive d
        { s.drives[d].offRun with state := .faulted, homed := false, pending := none, requester := none }).dropEntry d) :=
      (keepsRest_setDrive fun _ => still_of_state (.inr (.inr rfl))).trans (keepsRest_dropEntry _ _)
    split
    · exact h.trans (keepsRest_recompute _)
    · exact h

theorem keepsRest_countInMove : KeepsRest s (s.countInMove d) := by
  unfold State.countInMove
  simp only []
  split
  · split
    · exact .refl s
    · split
      · exact keepsRest_setDrive_state rfl
      · split
        · exact keepsRest_setDrive_state rfl
        · exact keepsRest_driveFault s d _
  · split
    · exact keepsRest_setDrive_state rfl
    · exact keepsRest_setDrive_state rfl

theorem keepsRest_takeCount (up : Bool) : KeepsRest s (s.takeCount d up) := by
  unfold State.takeCount
  simp only []
  split
  · split
    · exact .after_setDrive (keepsRest_driveFault _ _ _) rfl
    · exact keepsRest_setDrive_state rfl
  · split
    · split
      · exact .after_setDrive (keepsRest_driveFault _ _ _) rfl
      · split
        · exact .after_setDrive (keepsRest_countInMove _ _) rfl
        · exact keepsRest_setDrive_state rfl
    · exact keepsRest_setDrive_state rfl

theorem keepsRest_readEncoder (a b : Bool) : KeepsRest s (s.readEncoder d a b) := by
  unfold State.readEncoder
  simp only []
  split
  · exact .after_setDrive (keepsRest_takeCount _ _ _) rfl
  · exact keepsRest_setDrive_state rfl

theorem keepsRest_closeSwitch (which : Switch) : KeepsRest s (s.closeSwitch d which) := by
  have hnoted : KeepsRest s (s.setDrive d (s.drives[d].withSwitch which true)) :=
    keepsRest_setDrive_state (withSwitch_state _ _ _)
  unfold State.closeSwitch
  simp only []
  split
  · split
    · exact hnoted
    · exact hnoted.trans (keepsRest_setDrive_state (by rw [setDrive_same]; rfl))
  · exact hnoted.trans (keepsRest_driveFault _ _ _)
  · exact hnoted.trans (keepsRest_driveFault _ _ _)
  · exact hnoted

theorem keepsRest_failDriveRequest : KeepsRest s (s.failDriveRequest d) := by
  have h := (((keepsRest_setDrive (s := s) (d := d) fun _ => unstarted_still s.drives[d]).trans
    (keepsRest_dropEntry _ d)).trans (keepsRest_recompute _)).trans (keepsRest_recordFault _ .noPower d.val)
  unfold State.failDriveRequest
  simp only []
  refine KeepsRest.trans ?_ (keepsRest_completeAwaits _ _ _)
  split
  · exact h.trans (keepsRest_lateOutcome _ _ _)
  · exact h

end

end Sys2Proof.Machine
end

section
/-! The track block and its segment (R117, R119 to R132): where the segment stands, and where it may run. -/

namespace Sys2Proof.Machine

variable {s t u : State}

/-! ## The segment stands -/

/-- The segment does not run, and no request of it waits. -/
def SegmentStands (s : State) : Prop :=
  s.track.running = false ∧ ∀ e ∈ s.share.admissions, e.kind = .driveRun

theorem SegmentStands.safe (h : SegmentStands s) : SegmentSafe s where
  running hr := by
    rw [h.1] at hr
    cases hr
  starting e he hk := by
    rw [h.2 e he] at hk
    cases hk
  asking e he hk := by
    rw [h.2 e he] at hk
    cases hk

theorem SegmentSafe.not_running (h : SegmentSafe s) (hh : s.inHandover = false) : s.track.running = false :=
  Bool.eq_false_iff.2 fun hr => Bool.false_ne_true (hh.symm.trans (h.running hr))

/-- R70, R119: the segment stands while its block neither hands a carriage over nor asks for power. -/
theorem SegmentSafe.stands (h : SegmentSafe s) (hh : s.inHandover = false) (ha : s.track.state ≠ .askingPower) :
    SegmentStands s := by
  refine ⟨h.not_running hh, fun e he => ?_⟩
  cases hk : e.kind with
  | driveRun => rfl
  | segmentSend => exact absurd (h.asking e he hk).2 ha
  | segmentStart => exact absurd (hh.symm.trans (h.starting e he hk).2) Bool.false_ne_true

/-- Every request of the segment stands under drive 3. -/
theorem SegmentSafe.stands_dropEntry (h : SegmentSafe s) {tr : Track} (hr : tr.running = false) :
    SegmentStands (State.dropEntry { s with track := tr } 3) := by
  refine ⟨hr, fun e he => ?_⟩
  obtain ⟨he, hd⟩ := List.mem_filter.1 he
  cases hk : e.kind with
  | driveRun => rfl
  | segmentSend => exact absurd (h.asking e he hk).1 (bne_iff_ne.1 hd)
  | segmentStart => exact absurd (h.starting e he hk).1 (bne_iff_ne.1 hd)

/-- A change of the block while the segment stands. -/
theorem keepsSegment_move {tr : Track} (hh : s.inHandover = false) (ha : s.track.state ≠ .askingPower)
    (hr : tr.running = s.track.running) : KeepsSegment s { s with track := tr } :=
  ⟨rfl, fun h => SegmentStands.safe ⟨hr.trans (h.stands hh ha).1, (h.stands hh ha).2⟩⟩

/-- The same to a state that does not ask. -/
theorem keepsRest_move {tr : Track} (hh : s.inHandover = false) (ha : s.track.state ≠ .askingPower)
    (hr : tr.running = s.track.running) (hst : tr.state = .empty ∨ tr.state = .holding) :
    KeepsRest s { s with track := tr } where
  toKeepsSegment := keepsSegment_move hh ha hr
  rest _ h := by
    refine ⟨h.slots, h.idle, h.queue, h.drives, hr.trans h.stopped, ?_⟩
    unfold State.asking
    obtain hst | hst := hst <;> simp only [hst] <;> decide

/-! ## Outcomes (R18, R22) -/

theorem keepsRest_trackOutcome (s : State) (out : AwaitOutcome) : KeepsRest s (s.trackOutcome out) := by
  rw [trackOutcome_eq]
  exact .after (keepsRest_completeAwaits _ _ _) rfl rfl

theorem keepsRest_trackFailed (s : State) : KeepsRest s s.trackFailed := by
  unfold State.trackFailed
  simp only []
  split
  · exact (keepsRest_lateOutcome s _ _).trans (keepsRest_trackOutcome _ _)
  · exact keepsRest_trackOutcome s _

/-! ## Orders to the segment (R117) -/

theorem keepsSegment_runSegment (h : s.inHandover = true) : KeepsSegment s s.runSegment :=
  ⟨rfl, fun hs => ⟨fun _ => h, hs.starting, hs.asking⟩⟩

theorem stopSegment_running (s : State) : s.stopSegment.track.running = false := by
  obtain ⟨drives, h, -⟩ := stopSegment_frame s
  rw [h]

theorem keepsRest_stopSegment (s : State) : KeepsRest s s.stopSegment := by
  refine ⟨?_, fun _ hr => ?_⟩
  · obtain ⟨drives, h, -⟩ := stopSegment_frame s
    rw [h]
    exact ⟨rfl, fun hs => ⟨fun hx => (nomatch hx), hs.starting, hs.asking⟩⟩
  · rwa [show s.stopSegment = s from if_neg (by rw [hr.stopped]; decide)]

/-- R72: the start test of a segment whose block hands a carriage over. -/
theorem keepsSegment_segmentStartTest (h : s.inHandover = true) : KeepsSegment s s.segmentStartTest := by
  unfold State.segmentStartTest
  split
  · exact (keepsSegment_runSegment h).trans (.same rfl)
  · exact keepsSegment_enterAdmission (fun _ => ⟨rfl, h⟩) (fun hk => nomatch hk)

/-! ## Asks (R121 to R124) -/

theorem not_inHandover_of_asking (h : s.asking = true) : s.inHandover = false :=
  Bool.eq_false_iff.2 fun hh => Bool.false_ne_true ((not_asking_of_inHandover hh).symm.trans h)

theorem asking_of_asked (h : s.track.state = .askingAsked) : s.asking = true := asking_iff.2 (.inr h)

/-- A HALTED station at rest has no ask to end. -/
theorem AtRest.not_asking (ha : s.asking = true) (_ : s.halted = true) : ¬AtRest s := fun hr =>
  Bool.false_ne_true (hr.unasked.symm.trans ha)

theorem not_inHandover_of_state (h : s.track.state ≠ .sending ∧ s.track.state ≠ .receiving) : s.inHandover = false :=
  Bool.eq_false_iff.2 fun hh => (inHandover_iff.1 hh).elim h.1 h.2

/-- R121: a SEND is taken in HOLDING. -/
theorem keepsSegment_takeSend (speedClass : Fin 4) (h : s.track.state = .holding) :
    KeepsSegment s (s.takeSend speedClass) := by
  have hh : s.inHandover = false := not_inHandover_of_state (by rw [h]; decide)
  refine KeepsSegment.trans (keepsSegment_move hh (by rw [h]; decide) ?_)
    (keepsSegment_enterAdmission (fun hk => nomatch hk) fun _ => ⟨rfl, rfl⟩)
  rfl

theorem keepsSegment_endAsk (ha : s.asking = true) : KeepsSegment s s.endAsk := by
  refine KeepsSegment.trans ⟨?_, fun h => ?_⟩ (keepsRest_recompute _).toKeepsSegment
  · rfl
  · exact SegmentStands.safe (h.stands_dropEntry (h.not_running (not_inHandover_of_asking ha)))

theorem keepsSegment_withdrawAsk (ha : s.asking = true) : KeepsSegment s s.withdrawAsk := by
  unfold State.withdrawAsk
  simp only []
  have hsent : SendsOnly s ((if s.asked then s.withdrawBlockAsk else s).toPeer .cancel) := by
    refine SendsOnly.trans ?_ (sendsOnly_handOver _ _)
    split
    · exact sendsOnly_setTxQueue s _
    · exact .refl s
  exact (hsent.keepsSegment.trans (keepsSegment_endAsk (hsent.asking.trans ha))).trans
    (keepsRest_trackOutcome _ _).toKeepsSegment

theorem keepsRest_giveUpAsk (ha : s.asking = true) : KeepsRest s s.giveUpAsk := by
  have hsent : SendsOnly s ((s.toPeer .cancel).withdrawBlockAsk).retryClaim :=
    ((sendsOnly_handOver s _).trans (sendsOnly_setTxQueue _ _)).trans (sendsOnly_retryClaim _)
  exact ((hsent.keepsSegment.trans (keepsSegment_endAsk (hsent.asking.trans ha))).trans
    (keepsRest_trackFailed _).toKeepsSegment).toRest (AtRest.not_asking ha)

theorem keepsRest_failSegmentRequest (ha : s.asking = true) : KeepsRest s s.failSegmentRequest :=
  (((keepsSegment_endAsk ha).trans (keepsRest_recordFault _ _ _).toKeepsSegment).trans
    (keepsRest_trackFailed _).toKeepsSegment).toRest (AtRest.not_asking ha)

theorem keepsRest_enterSending (h : s.track.state = .askingAsked) : KeepsRest s s.enterSending := by
  have hsent : SendsOnly s s.withdrawBlockAsk.retryClaim := (sendsOnly_setTxQueue s _).trans (sendsOnly_retryClaim _)
  have hst : s.withdrawBlockAsk.retryClaim.track.state = .askingAsked := (congrArg Track.state hsent.track).trans h
  have hh : s.withdrawBlockAsk.retryClaim.inHandover = false :=
    not_inHandover_of_asking (asking_of_asked hst)
  refine KeepsSegment.toRest ?_ (AtRest.not_asking (asking_of_asked h))
  refine (hsent.keepsSegment.trans (keepsSegment_move hh (by rw [hst]; decide) ?_)).trans
    (keepsSegment_segmentStartTest rfl)
  rfl

theorem keepsRest_retryAsk (s : State) : KeepsRest s s.retryAsk := by
  unfold State.retryAsk
  simp only []
  split
  · exact .same rfl rfl
  · exact .after (keepsRest_handOverFor _ _ _) rfl rfl

/-! ## The end of a handover (R125, R127, R128) -/

theorem keepsRest_endHandover {state : TrackState} (h : state ≠ .askingPower ∧ state ≠ .askingAsked) :
    KeepsRest s (s.endHandover state) := by
  refine ((keepsRest_stopSegment s).trans ⟨⟨?_, fun hs => ?_⟩, fun _ hr => ?_⟩).trans (keepsRest_recompute _)
  · rfl
  · exact SegmentStands.safe (hs.stands_dropEntry (stopSegment_running s))
  · exact ⟨hr.slots, hr.idle, hr.queue, hr.drives, stopSegment_running s,
      Bool.eq_false_iff.2 fun ha => (asking_iff.1 ha).elim h.1 h.2⟩

theorem keepsRest_receiveComplete (s : State) : KeepsRest s s.receiveComplete :=
  (keepsRest_endHandover (by decide)).trans (keepsRest_trackOutcome _ _)

theorem keepsRest_sendComplete (s : State) : KeepsRest s s.sendComplete :=
  ((keepsRest_handOver s _).trans (keepsRest_endHandover (by decide))).trans (keepsRest_trackOutcome _ _)

theorem keepsRest_toPeerIfSending (s : State) :
    KeepsRest s (if s.track.state = .sending then s.toPeer .failed else s) := by
  split
  · exact keepsRest_handOver s _
  · exact .refl s

theorem keepsRest_trackLost (s : State) : KeepsRest s s.trackLost :=
  (((keepsRest_toPeerIfSending s).trans (keepsRest_recordFault _ _ _)).trans (keepsRest_endHandover (by decide))).trans
    (keepsRest_trackOutcome _ _)

theorem keepsRest_trackOvercurrent (s : State) : KeepsRest s s.trackOvercurrent :=
  ((keepsRest_toPeerIfSending s).trans (keepsRest_endHandover (by decide))).trans (keepsRest_trackOutcome _ _)

theorem keepsRest_stopped (s : State) : KeepsRest s { s with track.running := false } where
  halt := rfl
  safe h := ⟨fun hx => (nomatch hx), h.starting, h.asking⟩
  rest _ hr := ⟨hr.slots, hr.idle, hr.queue, hr.drives, rfl, hr.unasked⟩

theorem keepsRest_segmentOvercurrent (s : State) : KeepsRest s s.segmentOvercurrent := by
  unfold State.segmentOvercurrent
  simp only []
  exact (keepsRest_stopped s).trans
    (.after_setDrive ((keepsRest_recordFault _ _ _).trans (keepsRest_trackOvercurrent _)) rfl)

theorem keepsRest_takeSample (s : State) (d : Fin 4) (code : Nat) : KeepsRest s (s.takeSample d code) := by
  unfold State.takeSample
  simp only []
  split
  · split
    · exact .after_setDrive (keepsRest_segmentOvercurrent _) rfl
    · exact .after_setDrive (keepsRest_driveFault _ _ _) rfl
  · exact keepsRest_setDrive_state rfl

theorem keepsRest_failAdmission {e : AdmissionEntry} (ha : e.kind = .segmentSend → s.asking = true) :
    KeepsRest s (s.failAdmission e) := by
  unfold State.failAdmission
  split
  · exact keepsRest_failDriveRequest s _
  · rename_i hk
    exact keepsRest_failSegmentRequest (ha hk)
  · exact .refl s

/-! ## Receiving, and the beams (R126 to R129, R132) -/

/-- R126: an ask is granted in EMPTY, while RUNNING. -/
theorem keepsSegment_enterReceiving (source : Nat) (speedClass : Fin 4) (h : s.track.state = .empty) :
    KeepsSegment s (s.enterReceiving source speedClass) := by
  have hh : s.inHandover = false := not_inHandover_of_state (by rw [h]; decide)
  refine KeepsSegment.trans (keepsSegment_move hh (by rw [h]; decide) ?_) (keepsSegment_runSegment rfl)
  rfl

theorem keepsRest_takeAsk (s : State) (source : Nat) (speedClass : Fin 4) :
    KeepsRest s (s.takeAsk source speedClass) := by
  unfold State.takeAsk
  split
  · rename_i hst
    split
    · exact keepsRest_handOver s _
    · rename_i hh
      split
      · exact (((keepsSegment_enterReceiving source speedClass hst).trans (keepsRest_handOver _ _).toKeepsSegment).trans
          (keepsRest_recompute _).toKeepsSegment).toRest fun h => absurd h hh
      · exact keepsRest_handOver s _
  · split
    · exact keepsRest_handOver s _
    · exact keepsRest_handOver s _
  · exact keepsRest_handOver s _

theorem keepsRest_carriageArrived (s : State) : KeepsRest s s.carriageArrived := by
  unfold State.carriageArrived
  split
  · exact keepsRest_receiveComplete s
  · exact .same rfl rfl

theorem keepsRest_trackBeamBroken (s : State) (side : InputKind) : KeepsRest s (s.trackBeamBroken side) := by
  unfold State.trackBeamBroken
  split
  · exact .same rfl rfl
  · exact .same rfl rfl
  · exact keepsRest_receiveComplete s
  · rename_i h
    refine keepsRest_move (not_inHandover_of_state (by rw [h]; decide)) (by rw [h]; decide) ?_ (.inr ?_)
    · rfl
    · rfl
  · exact .refl s

theorem keepsRest_trackBeamClear (s : State) (side : InputKind) : KeepsRest s (s.trackBeamClear side) := by
  unfold State.trackBeamClear
  split
  · split
    · exact keepsRest_sendComplete s
    · exact .refl s
  · split
    · exact keepsRest_carriageArrived s
    · exact .refl s
  · exact .refl s

theorem keepsRest_clearTrack (s : State) : KeepsRest s s.clearTrack := by
  unfold State.clearTrack
  split
  · rename_i h
    refine keepsRest_move (not_inHandover_of_state (by rw [h.1]; decide)) (by rw [h.1]; decide) ?_ ?_
    · rfl
    · dsimp only
      split
      · exact .inr rfl
      · exact .inl rfl
  · exact .refl s

end Sys2Proof.Machine
end

section
/-! The segment through the works of the Scene Engine (R4 to R23, R119), which takes none of them while HALTED (R24,
R149). -/

namespace Sys2Proof.Machine

variable {s t u : State}

/-! ## The ends of a scene (R9, R22, R23) -/

theorem keepsSegment_raise (s : State) (ws : List Work) : KeepsSegment s (s.raise ws) := .same rfl

theorem keepsSegment_setRun (s : State) (k : Fin 4) (run : Option Running) : KeepsSegment s (s.setRun k run) := .same rfl

theorem keepsSegment_clearOwners (s : State) (k : Fin 4) : KeepsSegment s (s.clearOwners k) := .same rfl

theorem keepsSegment_forgetRequester (s : State) : KeepsSegment s (forgetRequester s) := .same rfl

theorem keepsSegment_cancelTrack (s : State) (k : Fin 4) (mark : BitVec 8) (why : CancelReason) :
    KeepsSegment s (s.cancelTrack k mark why) := by
  unfold State.cancelTrack
  split
  · simp only []
    split
    · rename_i ha
      exact (keepsSegment_withdrawAsk ha.2).trans (keepsSegment_forgetRequester _)
    · exact keepsSegment_forgetRequester s
  · exact .refl s

theorem keepsSegment_cancelSlot (s : State) (k : Fin 4) (why : CancelReason) : KeepsSegment s (s.cancelSlot k why) := by
  unfold State.cancelSlot
  split
  · exact .refl s
  · rename_i i _
    simp only []
    have hnarration : KeepsSegment s
        (if why = .halted then s else s.cancelNarration k s.engine.slots[k].mark) := by
      split
      · exact .refl s
      · exact (sendsOnly_cancelNarration s _ _).keepsSegment
    generalize (if why = .halted then s else s.cancelNarration k s.engine.slots[k].mark) = t at hnarration
    have hfreed := ((hnarration.trans (keepsSegment_cancelTrack t k s.engine.slots[k].mark why)).trans
      (keepsSegment_clearOwners _ k)).trans (keepsSegment_setRun _ k none)
    split
    · exact hfreed.trans (keepsSegment_raise _ _)
    · exact hfreed

theorem keepsSegment_moveOn (s : State) (k : Fin 4) : KeepsSegment s (s.moveOn k) := by
  unfold State.moveOn
  split
  · exact .refl s
  · split
    · exact keepsSegment_setRun s _ _
    · exact ((keepsSegment_clearOwners s _).trans (keepsSegment_setRun _ _ _)).trans (keepsSegment_raise _ _)

theorem keepsSegment_failStep (s : State) (k : Fin 4) : KeepsSegment s (s.failStep k) := by
  unfold State.failStep
  split
  · exact keepsSegment_cancelSlot s _ _
  · exact keepsSegment_moveOn s _

theorem keepsSegment_raiseRun (s : State) (k : Fin 4) : KeepsSegment s (s.raiseRun k) := by
  unfold State.raiseRun
  split
  · split
    · split
      · exact keepsSegment_raise s _
      · exact .refl s
    · exact .refl s
    · exact .refl s
  · exact .refl s

theorem keepsSegment_completeAwait (s : State) (k : Fin 4) (failed : Bool) :
    KeepsSegment s (s.completeAwait k failed) := by
  unfold State.completeAwait
  refine KeepsSegment.trans ?_ (keepsSegment_raiseRun _ _)
  split
  · exact keepsSegment_failStep s _
  · exact keepsSegment_moveOn s _

/-! ## Steps (R11 to R20) -/

theorem keepsSegment_preemptAwaits (s : State) (k : Fin 4) (subject : Subject) :
    KeepsSegment s (s.preemptAwaits k subject) :=
  (endAwaits_reports subject .preempted _ s).sendsOnly.keepsSegment

theorem keepsSegment_fadeChannel (s : State) (k : Fin 4) (priority target duration : Nat) (c : Fin 12) :
    KeepsSegment s (s.fadeChannel k priority target duration c) := by
  have htaken (t : State) (q : Requester) :
      KeepsSegment t ((t.setChannelOwner c (some ⟨k, priority⟩)).startFade c target duration (some q)) :=
    .after (keepsRest_startFade _ _ _ _ _).toKeepsSegment rfl
  unfold State.fadeChannel
  simp only []
  split
  · split
    · exact (keepsSegment_preemptAwaits s _ _).trans (htaken _ _)
    · exact htaken s _
  · exact .refl s

theorem keepsSegment_issueFade (s : State) (k : Fin 4) (priority : Nat) (channels : BitVec 12) (target duration : Nat) :
    KeepsSegment s (s.issueFade k priority channels target duration) := by
  refine KeepsSegment.foldl (fun t c => ?_) _ s
  split
  · exact keepsSegment_fadeChannel _ _ _ _ _ _
  · exact .refl t

theorem sendsOnly_issueSay (s : State) (k : Fin 4) (i : Running) (clip : Byte) (priority patience : Nat) :
    SendsOnly s (s.issueSay k i clip priority patience).1 := by
  unfold State.issueSay
  simp only []
  split
  · exact sendsOnly_setRun s _ _
  · split
    · exact ((sendsOnly_setRun s _ _).trans (sendsOnly_acceptSay _ _)).trans (sendsOnly_checkStart _)
    · exact (sendsOnly_setRun s _ _).trans (sendsOnly_checkStart _)

theorem keepsSegment_abandonRequest (s : State) (d : Fin 4) : KeepsSegment s (s.abandonRequest d) := by
  unfold State.abandonRequest
  split
  · exact ((keepsSegment_setDrive s _ _).trans (keepsRest_dropEntry _ _).toKeepsSegment).trans
      (keepsRest_recompute _).toKeepsSegment
  · exact .refl s

theorem keepsSegment_takeDrive (s : State) (k : Fin 4) (priority : Nat) (d : Fin 4) :
    KeepsSegment s (s.takeDrive k priority d) := by
  unfold State.takeDrive
  simp only []
  split
  · exact ((keepsSegment_preemptAwaits s _ _).trans (keepsSegment_abandonRequest _ d)).trans (.same rfl)
  · exact .same rfl

theorem keepsSegment_requestMove (s : State) (d : Fin 4) (target : Nat) (speedClass : Fin 4) (by_ : Requester) :
    KeepsSegment s (s.requestMove d target speedClass by_) := by
  unfold State.requestMove
  split
  · exact (keepsSegment_setDrive s _ _).trans (keepsSegment_driveRun _ _)
  · exact keepsSegment_setDrive s _ _
  · exact keepsSegment_setDrive s _ _
  · exact .refl s

theorem keepsSegment_pendHome (s : State) (d : Fin 4) (by_ : Requester) : KeepsSegment s (s.pendHome d by_) :=
  (keepsSegment_setDrive s _ _).trans (keepsSegment_driveRun _ _)

theorem keepsSegment_requestHome (s : State) (d : Fin 4) (by_ : Requester) : KeepsSegment s (s.requestHome d by_) := by
  unfold State.requestHome
  split
  · exact keepsSegment_pendHome s _ _
  · exact keepsSegment_pendHome s _ _
  · exact keepsSegment_pendHome s _ _
  · exact keepsSegment_pendHome s _ _
  · exact keepsSegment_setDrive s _ _
  · exact keepsSegment_setDrive s _ _
  · exact .refl s

theorem keepsSegment_issueMove (s : State) (k : Fin 4) (priority : Nat) (d : Fin 4) (target : Nat) (speedClass : Fin 4) :
    KeepsSegment s (s.issueMove k priority d target speedClass).1 := by
  unfold State.issueMove
  simp only []
  split
  · exact .refl s
  · split
    · exact .same rfl
    · split
      · exact (keepsSegment_takeDrive s _ _ _).trans (keepsSegment_requestMove _ _ _ _ _)
      · exact .refl s

theorem keepsSegment_issueHome (s : State) (k : Fin 4) (priority : Nat) (d : Fin 4) :
    KeepsSegment s (s.issueHome k priority d).1 := by
  unfold State.issueHome
  split
  · exact .refl s
  · split
    · exact (keepsSegment_takeDrive s _ _ _).trans (keepsSegment_requestHome _ _ _)
    · exact .refl s

theorem keepsSegment_issueSend (s : State) (k speedClass : Fin 4) : KeepsSegment s (s.issueSend k speedClass).1 := by
  unfold State.issueSend
  split
  · rename_i h
    simp only [Bool.and_eq_true, beq_iff_eq] at h
    obtain ⟨⟨-, hst⟩, -⟩ := h
    exact .after (keepsSegment_takeSend _ hst) rfl
  · exact .refl s

theorem keepsSegment_issueAwait (s : State) (k : Fin 4) (i : Running) (subject : Subject) (limit : Nat) :
    KeepsSegment s (s.issueAwait k i subject limit).1 := by
  unfold State.issueAwait
  split
  · exact .refl s
  · exact .refl s
  · exact .same rfl

theorem keepsSegment_carryOut (s : State) (k : Fin 4) (i : Running) (a : Action) :
    KeepsSegment s (s.carryOut k i a).1 := by
  cases a with
  | fade channels target duration => exact keepsSegment_issueFade s _ _ _ _ _
  | say clip priority patience => exact (sendsOnly_issueSay s _ _ _ _ _).keepsSegment
  | move d target speedClass => exact keepsSegment_issueMove s _ _ _ _ _
  | home d => exact keepsSegment_issueHome s _ _ _
  | send speedClass => exact keepsSegment_issueSend s _ _
  | await subject limit => exact keepsSegment_issueAwait s _ _ _ _
  | cue dest tag => exact (sendsOnly_handOver s (.cue dest tag)).keepsSegment

theorem keepsSegment_issueStep (s : State) (k : Fin 4) (i : Running) (r : StepRecord) :
    KeepsSegment s (s.issueStep k i r).1 := by
  unfold State.issueStep
  split
  · exact .after (keepsSegment_failStep _ _) rfl
  · rename_i a _
    have h := keepsSegment_carryOut s k i a
    split
    · rename_i t ht
      rw [ht] at h
      exact h.trans (keepsSegment_moveOn _ _)
    · rename_i t ht
      rw [ht] at h
      exact h.trans (keepsSegment_failStep _ _)
    · rename_i t ht
      rw [ht] at h
      exact h

theorem keepsSegment_runSteps : ∀ (n : Nat) (k : Fin 4) (mark : BitVec 8) (loops : List Work) (s : State),
    KeepsSegment s (State.runSteps n k mark loops s)
  | 0, _, _, _, s => keepsSegment_raise s _
  | n + 1, k, mark, loops, s => by
    unfold State.runSteps
    split
    · split
      · exact (keepsSegment_issueStep s _ _ _).trans (keepsSegment_runSteps n _ _ _ _)
      · exact keepsSegment_raise s _
    · exact keepsSegment_raise s _

/-! ## Triggers (R5 to R7) -/

theorem keepsSegment_startScene (s : State) (k : Fin 4) (n : Fin 64) (sc : Scene) (ev : TriggerEvent) :
    KeepsSegment s (s.startScene k n sc ev) := by
  have htaken (t : State) : KeepsSegment t (match ev with | .input i => t.clearLatch i | _ => t) := by
    split
    · exact .same rfl
    · exact .refl t
  unfold State.startScene
  simp only []
  split
  · exact .after ((htaken _).trans (.same rfl)) rfl
  · exact .after (htaken _) rfl

theorem keepsSegment_placeScene (s : State) (n : Fin 64) (sc : Scene) (ev : TriggerEvent) :
    KeepsSegment s (s.placeScene n sc ev) := by
  unfold State.placeScene
  split
  · exact keepsSegment_startScene s _ _ _ _
  · split
    · split
      · exact ((keepsSegment_cancelSlot s _ _).trans (keepsSegment_startScene _ _ _ _ _)).trans (keepsSegment_raise _ _)
      · exact .refl s
    · exact .refl s

theorem keepsSegment_consider (s : State) (ev : TriggerEvent) (n : Fin 64) : KeepsSegment s (s.consider ev n) := by
  unfold State.consider
  split
  · exact .refl s
  · split
    · split
      · exact .same rfl
      · exact .refl s
    · split
      · exact .refl s
      · split
        · exact .refl s
        · split
          · split
            · exact (keepsSegment_cancelSlot s _ _).trans (keepsSegment_startScene _ _ _ _ _)
            · exact .refl s
          · exact keepsSegment_placeScene s _ _ _

theorem keepsSegment_retake (s : State) (n : Fin 64) : KeepsSegment s (s.retake n) := by
  unfold State.retake
  split
  · exact .refl s
  · split
    · split
      · exact keepsSegment_consider s _ _
      · exact .refl s
    · exact .refl s

/-! ## The works of an event -/

theorem keepsSegment_takeAwaitDone (s : State) (k : Fin 4) (mark : BitVec 8) :
    KeepsSegment s (s.takeAwaitDone k mark) := by
  unfold State.takeAwaitDone
  split
  · split
    · exact keepsSegment_completeAwait s _ _
    · exact .refl s
    · exact .refl s
  · exact .refl s

theorem keepsSegment_takeLateFailure (s : State) (k : Fin 4) (mark : BitVec 8) :
    KeepsSegment s (s.takeLateFailure k mark) := by
  unfold State.takeLateFailure
  split
  · exact keepsSegment_cancelSlot s _ _
  · exact .refl s

theorem keepsSegment_take (s : State) (w : Work) : KeepsSegment s (s.take w) := by
  cases w with
  | consider ev n => exact keepsSegment_consider s ev n
  | retake n => exact keepsSegment_retake s n
  | runSlot k => exact keepsSegment_runSteps 32 k _ [] s
  | latchPassEnd i => exact .same rfl
  | awaitDone k mark => exact keepsSegment_takeAwaitDone s k mark
  | lateFailure k mark => exact keepsSegment_takeLateFailure s k mark
  | playerIdle => exact .after (sendsOnly_checkStart _).keepsSegment rfl

theorem AllFree.instanceOf (h : AllFree s) (k : Fin 4) (mark : BitVec 8) : s.instanceOf k mark = none := by
  unfold State.instanceOf
  rw [h k, ite_self]

theorem runSlot_free {k : Fin 4} (h : s.engine.slots[k].run = none) : s.runSlot k = s := by
  unfold State.runSlot State.runSteps
  simp only [stepDue_free h]
  exact raise_nil s

theorem takeLateFailure_free (h : AllFree s) (k : Fin 4) (mark : BitVec 8) : s.takeLateFailure k mark = s := by
  unfold State.takeLateFailure
  rw [h.instanceOf]
  rfl

/-- R5, R149: no work starts anything on a HALTED station at rest. -/
theorem AtRest.take (hr : AtRest s) (hh : s.halted = true) (w : Work) : AtRest (s.take w) := by
  cases w with
  | consider ev n =>
    obtain ⟨inputs, h, -⟩ := consider_halted_frame ev n hh
    show AtRest (s.consider ev n)
    rw [h]
    exact hr.congr rfl rfl rfl
  | retake n =>
    obtain ⟨inputs, h, -⟩ := take_idleWork (.inl ⟨n, rfl⟩) hh
    rw [h]
    exact hr.congr rfl rfl rfl
  | runSlot k =>
    show AtRest (s.runSlot k)
    rwa [runSlot_free (hr.slots k)]
  | latchPassEnd i => exact hr.congr rfl rfl rfl
  | awaitDone k mark =>
    show AtRest (s.takeAwaitDone k mark)
    rwa [takeAwaitDone_free hr.slots]
  | lateFailure k mark =>
    show AtRest (s.takeLateFailure k mark)
    rwa [takeLateFailure_free hr.slots]
  | playerIdle =>
    have hstopped : AtRest s.playerStopped := ⟨hr.slots, rfl, hr.queue, hr.drives, hr.stopped, hr.unasked⟩
    exact hstopped.checkStart

theorem keepsRest_take (s : State) (w : Work) : KeepsRest s (s.take w) :=
  ⟨keepsSegment_take s w, fun hh hr => hr.take hh w⟩

theorem keepsRest_settle : ∀ (n : Nat) {s t : State}, State.settle n s = some t → KeepsRest s t
  | 0, s, t, h => by
    unfold State.settle at h
    split at h
    · cases h
      exact .refl s
    · cases h
  | n + 1, s, t, h => by
    unfold State.settle at h
    split at h
    · cases h
      exact .refl s
    · rename_i w rest _
      have htaken := KeepsRest.after (s := s) (keepsRest_take { s with works := [] } w) rfl rfl
      exact htaken.trans (.after (keepsRest_settle n h) rfl rfl)

end Sys2Proof.Machine
end

section
/-! While HALTED nothing runs, after every step (R149): the entry into HALTED and the return, the events of the line, the
inputs and the port, and every command. -/

namespace Sys2Proof.Machine

variable {s t u : State}

/-- Both invariants of R149. -/
structure Safe (s : State) : Prop where
  segment : SegmentSafe s
  halt : HaltSafe s

theorem Safe.keeps (h : Safe s) (hk : KeepsRest s t) : Safe t where
  segment := hk.safe h.segment
  halt := haltSafe_iff.2 fun hh => by
    rw [hk.halted] at hh
    exact hk.rest hh (haltSafe_iff.1 h.halt hh)

theorem Safe.same (h : Safe s) (hf : t.segmentFields = s.segmentFields) (hr : t.restFields = s.restFields) : Safe t :=
  h.keeps (.same hf hr)

theorem safe_of_running (h : SegmentSafe s) (hh : s.halt = none) : Safe s where
  segment := h
  halt := haltSafe_iff.2 fun hx => by
    unfold State.halted at hx
    rw [hh] at hx
    cases hx

/-! ## The entry into HALTED, and the return (R131, R149 to R152) -/

theorem keepsSegment_haltTrack (s : State) : KeepsSegment s s.haltTrack := by
  unfold State.haltTrack
  split
  · rename_i ha
    exact keepsSegment_withdrawAsk ha
  · split
    · exact (keepsRest_stopSegment s).toKeepsSegment.trans
        (.after (keepsRest_recompute _).toKeepsSegment rfl)
    · exact .refl s

theorem keepsSegment_haltScenes (s : State) : KeepsSegment s s.haltScenes := by
  obtain ⟨e, ns, h, -⟩ := haltScenes_frame s
  rw [h]
  exact .same rfl

theorem keepsSegment_haltAdmissions (s : State) : KeepsSegment s s.haltAdmissions :=
  .fewer rfl rfl rfl fun _ he => List.mem_of_mem_filter he

theorem SegmentSafe.enterHalt (h : SegmentSafe s) (r : HaltReason) : SegmentSafe (s.enterHalt r) := by
  have hhalt : SegmentSafe { s with halt := some r } := ⟨h.running, h.starting, h.asking⟩
  have hdrives (t : State) : KeepsSegment t t.haltDrives := .after (keepsRest_recompute _).toKeepsSegment rfl
  exact (((((keepsSegment_haltScenes _).trans (keepsSegment_haltFades _)).trans (keepsSegment_haltAdmissions _)).trans
    (sendsOnly_haltNarration _).keepsSegment).trans ((hdrives _).trans (keepsSegment_haltTrack _))).safe hhalt

theorem safe_enterHalt (h : SegmentSafe s) (r : HaltReason) : Safe (s.enterHalt r) :=
  ⟨h.enterHalt r, (enterHalt_entered h.running).haltSafe rfl rfl rfl rfl⟩

theorem keepsSegment_resumeTrack (s : State) : KeepsSegment s s.resumeTrack := by
  unfold State.resumeTrack
  split
  · rename_i h
    exact .after (keepsSegment_segmentStartTest h) rfl
  · exact .refl s

theorem safe_leaveHalt (h : SegmentSafe s) : Safe s.leaveHalt := by
  have hk := keepsSegment_resumeTrack { s with halt := none }
  have hs : Safe (State.resumeTrack { s with halt := none }) :=
    safe_of_running (hk.safe ⟨h.running, h.starting, h.asking⟩) hk.halt
  exact hs.same rfl rfl

theorem Safe.handOver (h : Safe s) (body : FrameBody) : Safe (s.handOver body) := h.keeps (keepsRest_handOver s body)

theorem Safe.recordFault (h : Safe s) (kind : FaultKind) (detail : Nat) : Safe (s.recordFault kind detail) :=
  h.keeps (keepsRest_recordFault s kind detail)

theorem Safe.stopActivation (h : Safe s) : Safe s.stopActivation := by
  unfold State.stopActivation
  split
  · exact h.handOver _
  · exact ((safe_enterHalt h.segment _).handOver _).recordFault _ _

theorem Safe.haltFrame (h : Safe s) : Safe s.haltFrame := by
  unfold State.haltFrame
  split
  · exact h
  · exact (safe_enterHalt h.segment _).recordFault _ _

theorem Safe.resumeAtHalt (h : Safe s) : Safe s.resumeAtHalt := by
  unfold State.resumeAtHalt
  split
  · split
    · exact h.handOver _
    · exact (safe_leaveHalt h.segment).handOver _
  · exact h

theorem Safe.clearTrack (h : Safe s) : Safe s.clearTrack := h.keeps (keepsRest_clearTrack s)

theorem Safe.resumeActivation (h : Safe s) : Safe s.resumeActivation := by
  unfold State.resumeActivation
  split
  · have hdrawn : Safe { s with draws := s.draws + 1 } := h.same rfl rfl
    simp only []
    split
    · exact hdrawn.resumeAtHalt.clearTrack
    · exact hdrawn.clearTrack.resumeAtHalt
  · exact h.resumeAtHalt.clearTrack

theorem Safe.resumeFrame (h : Safe s) : Safe s.resumeFrame := by
  have hcleared : Safe (flagCleared s) := by
    unfold flagCleared
    exact h.same rfl rfl
  rw [resumeFrame_eq]
  split
  · split
    · exact hcleared.handOver _
    · exact safe_leaveHalt hcleared.segment
  · exact hcleared

theorem Safe.joiningHaltCheck (h : Safe s) (flag : Bool) : Safe (s.joiningHaltCheck flag) := by
  unfold State.joiningHaltCheck
  split
  · exact h
  · split
    · exact ((safe_enterHalt h.segment _).handOver _).recordFault _ _
    · split
      · exact (safe_enterHalt h.segment _).recordFault _ _
      · exact h

/-! ## The line (R134 to R147) -/

theorem keepsRest_setLineState (s : State) (l : LineState) : KeepsRest s (s.setLineState l) :=
  KeepsRest.after ((keepsRest_recompute _).trans (keepsRest_playerLineChanged _)) rfl rfl

theorem keepsRest_failAttempt (s : State) : KeepsRest s s.failAttempt := by
  unfold State.failAttempt
  simp only []
  split
  · exact .same rfl rfl
  · exact .same rfl rfl

theorem keepsRest_abortAttempt (s : State) : KeepsRest s s.abortAttempt := by
  unfold State.abortAttempt
  simp only []
  refine (keepsRest_failAttempt s).trans (KeepsRest.trans ?_ (keepsRest_retryClaim _))
  split
  · exact .same rfl rfl
  · exact .after (keepsRest_setLineState _ _) rfl rfl

theorem keepsRest_intentSentFor (s : State) (claim : Nat) : KeepsRest s (s.intentSentFor claim) := by
  unfold State.intentSentFor
  split
  · exact .same rfl rfl
  · exact .refl s

theorem keepsRest_succeedAttempt (s : State) (e : TxEntry) : KeepsRest s (s.succeedAttempt e) := by
  have htold (t : State) : KeepsRest t (if e.isIntent = true then t.intentSentFor e.claim else t) := by
    split
    · exact keepsRest_intentSentFor t _
    · exact .refl t
  have hentered (t : State) : KeepsRest t (match s.line.heldLoad with | some load => t.enterTx load | none => t) := by
    split
    · exact keepsRest_enterTx t _
    · exact .refl t
  exact .after ((htold _).trans ((hentered _).trans (keepsRest_retryClaim _))) rfl rfl

theorem keepsRest_setPeers (s : State) (ps : List Peer) : KeepsRest s (s.setPeers ps) := .same rfl rfl

theorem keepsRest_peersChanged (s : State) : KeepsRest s s.peersChanged := by
  unfold State.peersChanged
  split
  · exact .refl s
  · exact keepsRest_recompute s

theorem keepsRest_removePeer (s : State) (n : Nat) : KeepsRest s (s.removePeer n) :=
  (keepsRest_setPeers s _).trans (keepsRest_peersChanged _)

theorem keepsRest_addPeer (s : State) (n demand : Nat) : KeepsRest s (s.addPeer n demand) :=
  (keepsRest_setPeers s _).trans (keepsRest_peersChanged _)

theorem keepsRest_addToFullTable (s : State) (n demand : Nat) : KeepsRest s (s.addToFullTable n demand) := by
  unfold State.addToFullTable
  split
  · exact .refl s
  · split
    · exact (keepsRest_removePeer s _).trans (keepsRest_addPeer _ _ _)
    · split
      · exact .refl s
      · exact .same rfl rfl

theorem keepsRest_takeLoad (s : State) (n demand group : Nat) : KeepsRest s (s.takeLoad n demand group) := by
  unfold State.takeLoad
  split
  · split
    · exact (keepsRest_setPeers s _).trans (keepsRest_peersChanged _)
    · split
      · exact keepsRest_addPeer s _ _
      · exact keepsRest_addToFullTable s _ _
  · split
    · exact keepsRest_removePeer s _
    · exact .refl s

theorem keepsRest_duplicate (s : State) : KeepsRest s s.duplicate := by
  unfold State.duplicate
  simp only []
  split
  · exact .same rfl rfl
  · exact .after (keepsRest_setLineState _ _) rfl rfl

theorem keepsRest_becomeActive (s : State) : KeepsRest s s.becomeActive := by
  unfold State.becomeActive
  split
  · exact .after (((keepsRest_recompute _).trans (keepsRest_handOverLoad _)).trans (keepsRest_playerLineChanged _))
      rfl rfl
  · exact .refl s

theorem Safe.endJoining (h : Safe s) : Safe s.endJoining := by
  have hended : Safe { s with line.joiningTimer := none } := h.same rfl rfl
  exact (hended.joiningHaltCheck s.line.joiningHalt).keeps ((keepsRest_becomeActive _).trans (keepsRest_raise _ _))

/-! ## Received frames -/

theorem keepsRest_hearIntent (s : State) (source priority duration : Nat) :
    KeepsRest s (State.hearIntent source priority duration s) := by
  have hvoice := keepsRest_setVoice s source (.talkUntil (s.now + 10 * duration + 200))
  unfold State.hearIntent
  simp only []
  split
  · exact hvoice
  · rename_i hst
    split
    · exact hvoice.trans (keepsRest_backOff hst)
    · exact hvoice
  · exact hvoice.trans (keepsRest_handOver _ _)
  · exact hvoice.trans (keepsRest_handOver _ _)

theorem keepsRest_hearBusy (s : State) (source dest remaining : Nat) :
    KeepsRest s (State.hearBusy source dest remaining s) := by
  unfold State.hearBusy
  split
  · exact .refl s
  · split
    · have hvoice := keepsRest_setVoice s source (.talkUntil (s.now + 10 * remaining + 200))
      simp only []
      split
      · rename_i h
        obtain ⟨-, hst⟩ := Bool.and_eq_true_iff.1 h
        exact hvoice.trans (keepsRest_backOff (beq_iff_eq.1 hst))
      · exact hvoice
    · exact keepsRest_setVoice s _ _

theorem keepsRest_hearEnd (s : State) (source : Nat) : KeepsRest s (State.hearEnd source s) := by
  unfold State.hearEnd
  split
  · exact (keepsRest_setVoice s _ _).trans (keepsRest_checkStart _)
  · exact .refl s

theorem keepsRest_hearAsk (s : State) (source dest : Nat) (speedClass : Fin 4) :
    KeepsRest s (State.hearAsk source dest speedClass s) := by
  unfold State.hearAsk
  split
  · exact keepsRest_takeAsk s _ _
  · exact .refl s

theorem keepsRest_hearGrant (s : State) (source dest : Nat) : KeepsRest s (State.hearGrant source dest s) := by
  unfold State.hearGrant State.takeGrant
  split
  · split
    · rename_i hst
      exact keepsRest_enterSending hst
    · exact .refl s
    · exact keepsRest_handOver s _
  · exact .refl s

theorem keepsRest_hearHeld (s : State) (source dest : Nat) : KeepsRest s (State.hearHeld source dest s) := by
  unfold State.hearHeld
  split
  · exact .same rfl rfl
  · exact .refl s

theorem keepsRest_hearRelease (s : State) (source dest : Nat) (outcome : ReleaseOutcome) :
    KeepsRest s (State.hearRelease source dest outcome s) := by
  unfold State.hearRelease State.takeRelease
  split
  · split
    · exact .refl s
    · exact (keepsRest_endHandover (by decide)).trans (keepsRest_trackOutcome _ _)
    · exact keepsRest_trackLost s
  · exact .refl s

theorem keepsRest_hearCue (s : State) (source dest tag : Nat) : KeepsRest s (State.hearCue source dest tag s) := by
  unfold State.hearCue
  split
  · exact keepsRest_raise s _
  · exact .refl s

theorem keepsRest_hearLoad (s : State) (source demand group : Nat) (halted : Bool) :
    KeepsRest s (State.hearLoad source demand group halted s) := by
  unfold State.hearLoad
  simp only []
  refine KeepsRest.trans ?_ (keepsRest_takeLoad _ _ _ _)
  split
  · exact .same rfl rfl
  · exact .refl s

/-- A frame received is noted or is a duplicate, and may be routed. -/
theorem Safe.receive (h : Safe s) (k : FrameKind) (f : Frame) {route : State → State}
    (hroute : ∀ t, Safe t → Safe (route t)) : Safe (s.receive k f route) := by
  have hduplicate := h.keeps (keepsRest_duplicate s)
  unfold State.receive
  split
  · split
    · split
      · exact h
      · split
        · exact hroute _ hduplicate
        · exact hduplicate
    · exact hroute _ (h.keeps (keepsRest_setPeers s _))
  · exact h

/-! ## The inputs (R26 to R37) -/

theorem keepsRest_entry (s : State) : KeepsRest s s.entry := by
  unfold State.entry
  split
  · exact .same rfl rfl
  · exact .same rfl rfl

theorem keepsRest_exitBay (s : State) : KeepsRest s s.exitBay := by
  unfold State.exitBay
  split
  · exact .refl s
  · split
    · exact .same rfl rfl
    · exact .same rfl rfl

theorem keepsRest_press (s : State) (i : Fin 8) : KeepsRest s (s.press i) := by
  unfold State.press
  simp only []
  split
  · exact .same rfl rfl
  · exact .same rfl rfl

theorem Safe.activation (h : Safe s) (i : Fin 8) : Safe (s.activation i) := by
  have hnoted : Safe (s.setInput i { s.inputs.inputs[i] with lastActivation := some s.now }) := h.same rfl rfl
  unfold State.activation
  simp only []
  generalize s.setInput i { s.inputs.inputs[i] with lastActivation := some s.now } = t at hnoted
  have hbeam (side : InputKind) : Safe (if t.settings.trackMode = true then t.trackBeamBroken side else t) := by
    split
    · exact hnoted.keeps (keepsRest_trackBeamBroken t side)
    · exact hnoted
  split
  · exact hnoted
  · exact hnoted.keeps (keepsRest_press t i)
  · exact hnoted.keeps (keepsRest_press t i)
  · exact hnoted.keeps (keepsRest_entry t)
  · exact hnoted.keeps (keepsRest_exitBay t)
  · exact hnoted.stopActivation
  · exact hnoted.resumeActivation
  · exact hbeam .arrive
  · exact hbeam .depart

theorem keepsRest_release (s : State) (i : Fin 8) : KeepsRest s (s.release i) := by
  unfold State.release
  split
  · split
    · exact keepsRest_trackBeamClear s _
    · exact .refl s
  · split
    · exact keepsRest_trackBeamClear s _
    · exact .refl s
  · exact .refl s

theorem Safe.sampleInput (h : Safe s) (i : Fin 8) (code : BitVec 10) : Safe (s.sampleInput i code) := by
  have hsampled : Safe (s.setInput i (s.inputs.inputs[i].sample s.settings.inputs[i] (levelOf code))) := h.same rfl rfl
  unfold State.sampleInput
  simp only []
  split
  · exact hsampled
  · split
    · exact hsampled.activation i
    · exact hsampled.keeps (keepsRest_release _ i)

/-! ## Restarts, and the station with no command waiting -/

theorem segmentSafe_of_empty (hr : s.track.running = false) (ha : s.share.admissions = []) : SegmentSafe s :=
  SegmentStands.safe ⟨hr, fun e he => by
    rw [ha] at he
    cases he⟩

theorem safe_blank (s : State) (p : Phase) : Safe (s.blank p) :=
  safe_of_running (segmentSafe_of_empty rfl rfl) rfl

theorem safe_startShow (levels : Levels) (hh : s.halt = none) (ha : s.share.admissions = []) :
    Safe (s.startShow levels) := by
  obtain ⟨-, hshare, hhalt, -⟩ := readScenes_rest
    { State.indicators { s with phase := .running, settings := readSettings s.memory } with
      inputs := InputUnit.atStart (readSettings s.memory) levels }
  exact safe_of_running (segmentSafe_of_empty rfl ((congrArg Share.admissions hshare).trans ha)) (hhalt.trans hh)

theorem safe_restart (s : State) (cause : RestartCause) (low : Bool) (levels : Levels) :
    Safe (s.restart cause low levels) := by
  have hblank := (safe_blank s .unconfigured).recordFault .restart cause.code
  unfold State.restart State.intoShow
  simp only []
  split
  · exact hblank.same rfl rfl
  · split
    · exact hblank.recordFault _ _
    · exact safe_startShow levels rfl rfl

theorem Safe.idle (h : Safe s) : Safe s.idle := by
  have hticked : Safe s.tickClock := by
    unfold State.tickClock
    split
    · exact h.same rfl rfl
    · exact h.same rfl rfl
  unfold State.idle
  split
  · unfold State.passTime
    split
    · exact h
    · exact h
    · exact hticked.keeps (keepsRest_sendSample _)
  · exact h.same rfl rfl
  · exact h.same rfl rfl

/-! ## Every command -/

/-- Every next state that an outcome can be is safe. -/
def LeadsToSafe (o : Host.Outcome State Fault Refusal) : Prop := ∀ t, o = .next t → Safe t

theorem LeadsToSafe.next (h : Safe t) : LeadsToSafe (.next t) := fun _ ht => by cases ht; exact h

theorem LeadsToSafe.ite {p : Prop} [Decidable p] {a b : Host.Outcome State Fault Refusal} (ha : p → LeadsToSafe a)
    (hb : LeadsToSafe b) : LeadsToSafe (if p then a else b) := by
  split
  · rename_i hp
    exact ha hp
  · exact hb

/-- An event is safe when its body is: its works start nothing while HALTED. -/
theorem leadsToSafe_event {body : State → State} (h : Safe (body s)) : LeadsToSafe (event body s) := fun t ht => by
  unfold event at ht
  split at ht
  · rename_i u hu
    cases ht
    exact h.keeps ((keepsRest_settle _ hu).trans (keepsRest_announce u))
  · cases ht

/-- An event that is taken on a condition, and has no effect otherwise. -/
theorem leadsToSafe_due {body : State → State} {p : Prop} [Decidable p] (h : Safe s) (hb : p → KeepsRest s (body s)) :
    LeadsToSafe (if p then event body s else .next s) :=
  .ite (fun hp => leadsToSafe_event (h.keeps (hb hp))) (.next h)

/-- A command of the port. -/
theorem leadsToSafe_portCommand {n : Nat} {effect : State → State} (h : Safe s) (he : ∀ u, Safe u → Safe (effect u)) :
    LeadsToSafe (portCommand n effect s) := by
  unfold portCommand
  exact .ite (fun _ => .ite (fun _ => .next (h.same rfl rfl)) (.next (he _ (h.same rfl rfl)))) (.next h)

/-- The port and the stored image are no part of what rests. -/
theorem Safe.withImage (h : Safe s) (m : List Host.Cell) (p : Port) : Safe { s with memory := m, port := p } :=
  h.same rfl rfl

theorem Safe.withPort (h : Safe s) (p : Port) : Safe { s with port := p } := h.same rfl rfl

theorem Safe.answer (h : Safe s) (bytes : List Byte) : Safe (s.answer bytes) := h.withPort _

theorem Safe.advancePointer (h : Safe s) : Safe s.advancePointer := h.withPort _

theorem Safe.loadByte (h : Safe s) (data : Byte) : Safe (s.loadByte data) := h.withPort _

theorem Safe.begin (h : Safe s) (operation : Operation) (ticks : Nat) : Safe (s.begin operation ticks) := h.withPort _

theorem Safe.refuse (h : Safe s) : Safe s.refuse := h.withPort _

theorem Safe.clearFaults (h : Safe s) : Safe (State.indicators { s with faults.records := [] }) := h.same rfl rfl

theorem Safe.unlessProtected {effect : State → State} (h : Safe s) (he : Safe (effect s)) :
    Safe (s.unlessProtected effect) := by
  unfold State.unlessProtected
  split
  · exact h.same rfl rfl
  · exact he

theorem keepsRest_beginAttempt (s : State) : KeepsRest s s.beginAttempt := by
  unfold State.beginAttempt
  split
  · exact .refl s
  · exact .same rfl rfl

theorem clipEnd_busy (h : (s.inShow && s.player.state == .playing && s.clipOver) = true) : s.player.state ≠ .idle := by
  simp only [Bool.and_eq_true, beq_iff_eq] at h
  obtain ⟨⟨-, hst⟩, -⟩ := h
  rw [hst]
  decide

theorem fadeOut_busy (h : s.fadeOutOver = true) : s.player.state ≠ .idle := by
  obtain ⟨hst, -⟩ := Bool.and_eq_true_iff.1 h
  rw [beq_iff_eq.1 hst]
  decide

theorem window_busy (h : s.windowDue = true) : s.player.state ≠ .idle := by
  obtain ⟨hst, -⟩ := Bool.and_eq_true_iff.1 h
  rw [beq_iff_eq.1 hst]
  decide

theorem giveUpDue_asking (h : s.giveUpDue = true) : s.asking = true := by
  obtain ⟨hst, -⟩ := Bool.and_eq_true_iff.1 h
  exact asking_of_asked (beq_iff_eq.1 hst)

theorem leadsToSafe_exec (h : Safe s) (c : Instr) : LeadsToSafe (exec c s) := by
  cases c with
  | powerOn low levels => exact .next (safe_restart _ _ _ _)
  | powerLoss => exact .next (safe_blank _ _)
  | resetAssert => exact .ite (fun _ => .next h) (.next (safe_blank _ _))
  | resetRelease low levels => exact .ite (fun _ => .next h) (.next (safe_restart _ _ _ _))
  | supplyRiseWithResetLow => exact .next (safe_blank _ _)
  | inputSample i code => exact .ite (fun _ => leadsToSafe_event (h.sampleInput i code)) (.next h)
  | latchExpiry i => exact .ite (fun _ => .next (h.same rfl rfl)) (.next h)
  | quietTimerExpiry => exact leadsToSafe_due h fun _ => .same rfl rfl
  | idleTimerExpiry => exact leadsToSafe_due h fun _ => .after (keepsRest_idleDimming _) rfl rfl
  | cooldownEnd n => exact leadsToSafe_due h fun _ => .same rfl rfl
  | stepDeadline k => exact leadsToSafe_due h fun _ => keepsRest_take s (.runSlot k)
  | awaitTimeout k =>
    refine leadsToSafe_due h fun hd => (keepsSegment_completeAwait s k true).toRest fun _ hr => ?_
    obtain ⟨i, -, -, hrun, -⟩ := (awaitTimedOut_iff s k).1 (Bool.and_eq_true_iff.1 hd).2
    rw [hr.slots k] at hrun
    cases hrun
  | fadeStep c => exact leadsToSafe_due h fun _ => keepsRest_takeFadeStep s c
  | announcementDue => exact leadsToSafe_due h fun _ => keepsRest_handOverLoad s
  | admissionTimeout d =>
    refine .ite (fun _ => ?_) (.next h)
    split
    · rename_i e he
      refine leadsToSafe_event (h.keeps (keepsRest_failAdmission fun hk => ?_))
      exact asking_iff.2 (.inl (h.segment.asking e (List.mem_of_find?_eq_some he) hk).2)
    · exact .next h
  | voiceEntryExpiry n =>
    exact leadsToSafe_due h fun _ => (keepsRest_setVoice s n .quiet).trans (keepsRest_checkStart _)
  | patienceExpiry k clip =>
    refine .ite (fun _ => ?_) (.next h)
    split
    · refine leadsToSafe_event (h.keeps (KeepsRest.trans ⟨?_, fun _ hr => ?_⟩ (keepsRest_reportSay _ _ _)))
      · exact .same rfl
      · exact ⟨hr.slots, hr.idle, by rw [setSayQueue_player_queue, hr.queue]; rfl, hr.drives, hr.stopped, hr.unasked⟩
    · exact .next h
  | windowEnd =>
    exact leadsToSafe_due h fun hd =>
      (sendsOnly_endWindow s).keepsRest_of_busy (window_busy (Bool.and_eq_true_iff.1 hd).2)
  | clipEnd => exact leadsToSafe_due h fun hd => (sendsOnly_endClip s).keepsRest_of_busy (clipEnd_busy hd)
  | fadeOutEnd =>
    exact leadsToSafe_due h fun hd =>
      (sendsOnly_endFadeOut s).keepsRest_of_busy (fadeOut_busy (Bool.and_eq_true_iff.1 hd).2)
  | encoderCount d a b => exact leadsToSafe_due h fun _ => keepsRest_readEncoder s d a b
  | stillTimerExpiry d => exact leadsToSafe_due h fun _ => keepsRest_driveArrives s d
  | stallTimerExpiry d => exact leadsToSafe_due h fun _ => keepsRest_driveFault s d .stall
  | currentSample d code => exact leadsToSafe_due h fun _ => keepsRest_takeSample s d code.toNat
  | switchClose d which => exact leadsToSafe_due h fun _ => keepsRest_closeSwitch s d which
  | switchOpen d which =>
    exact .ite (fun _ => .next (h.keeps (keepsRest_setDrive_state (withSwitch_state _ _ _)))) (.next h)
  | haltBrakeEnd d => exact .ite (fun _ => .next (h.keeps (keepsRest_setDrive_state rfl))) (.next h)
  | retryTimerExpiry => exact leadsToSafe_due h fun _ => keepsRest_retryAsk s
  | giveUpTimerExpiry =>
    exact leadsToSafe_due h fun hd => keepsRest_giveUpAsk (giveUpDue_asking (Bool.and_eq_true_iff.1 hd).2)
  | grantTimerExpiry => exact leadsToSafe_due h fun _ => keepsRest_trackLost s
  | settleEnd => exact leadsToSafe_due h fun _ => keepsRest_receiveComplete s
  | haltReceived f => exact leadsToSafe_event (h.receive _ f fun _ ht => ht.haltFrame)
  | resumeReceived f => exact leadsToSafe_event (h.receive _ f fun _ ht => ht.resumeFrame)
  | talkIntentReceived f => exact leadsToSafe_event (h.receive _ f fun t ht => ht.keeps (keepsRest_hearIntent t _ _ _))
  | talkBusyReceived f => exact leadsToSafe_event (h.receive _ f fun t ht => ht.keeps (keepsRest_hearBusy t _ _ _))
  | talkEndReceived f => exact leadsToSafe_event (h.receive _ f fun t ht => ht.keeps (keepsRest_hearEnd t _))
  | blockAskReceived f => exact leadsToSafe_event (h.receive _ f fun t ht => ht.keeps (keepsRest_hearAsk t _ _ _))
  | blockGrantReceived f => exact leadsToSafe_event (h.receive _ f fun t ht => ht.keeps (keepsRest_hearGrant t _ _))
  | blockHeldReceived f => exact leadsToSafe_event (h.receive _ f fun t ht => ht.keeps (keepsRest_hearHeld t _ _))
  | blockReleaseReceived f =>
    exact leadsToSafe_event (h.receive _ f fun t ht => ht.keeps (keepsRest_hearRelease t _ _ _))
  | cueReceived f => exact leadsToSafe_event (h.receive _ f fun t ht => ht.keeps (keepsRest_hearCue t _ _ _))
  | loadReceived f => exact leadsToSafe_event (h.receive _ f fun t ht => ht.keeps (keepsRest_hearLoad t _ _ _ _))
  | peerAgeOut n => exact leadsToSafe_due h fun _ => keepsRest_removePeer s n
  | transmissionAttempt => exact .ite (fun _ => .next (h.keeps (keepsRest_beginAttempt s))) (.next h)
  | arbitrationLost =>
    exact leadsToSafe_due h fun _ => (keepsRest_failAttempt s).trans (keepsRest_retryClaim _)
  | readbackAbort => exact leadsToSafe_due h fun _ => keepsRest_abortAttempt s
  | transmissionSuccess =>
    refine .ite (fun _ => ?_) (.next h)
    split
    · exact leadsToSafe_event (h.keeps (keepsRest_succeedAttempt s _))
    · exact .next h
  | muteTimerExpiry => exact leadsToSafe_due h fun _ => .after (keepsRest_setLineState _ _) rfl rfl
  | joiningTimerExpiry => exact .ite (fun _ => leadsToSafe_event h.endJoining) (.next h)
  | lineStuck => exact .ite (fun _ => .next (h.same rfl rfl)) (.next h)
  | stuckHoldClear => exact .ite (fun _ => .next (h.same rfl rfl)) (.next h)
  | transactionDiscard bytes => exact .next h
  | unknownCommand code => exact leadsToSafe_portCommand h fun _ hu => hu.refuse
  | eraseAllScopeRefused scope => exact leadsToSafe_portCommand h fun _ hu => hu.refuse
  | identify => exact leadsToSafe_portCommand h fun _ hu => hu.answer _
  | status => exact .ite (fun _ => .next (h.same rfl rfl)) (.next h)
  | setAddress a =>
    exact leadsToSafe_portCommand (effect := fun u => { u with port.pointer := a.extractLsb' 0 23 }) h
      fun _ hu => hu.withPort _
  | read => exact leadsToSafe_portCommand h fun _ hu => hu.answer _
  | readNext => exact leadsToSafe_portCommand h fun _ hu => (hu.answer _).advancePointer
  | load b => exact leadsToSafe_portCommand h fun _ hu => hu.loadByte b
  | loadNext b => exact leadsToSafe_portCommand h fun _ hu => (hu.loadByte b).advancePointer
  | commit => exact leadsToSafe_portCommand h fun _ hu => hu.unlessProtected (hu.begin _ _)
  | eraseSector => exact leadsToSafe_portCommand h fun _ hu => hu.unlessProtected (hu.begin _ _)
  | eraseAllContent => exact leadsToSafe_portCommand h fun _ hu => hu.unlessProtected (hu.begin _ _)
  | eraseAllEverything => exact leadsToSafe_portCommand h fun _ hu => hu.begin _ _
  | commitComplete =>
    refine .ite (fun _ => ?_) (.next h)
    split
    · exact .next (h.withImage _ _)
    · exact .next h
  | eraseComplete =>
    refine .ite (fun _ => ?_) (.next h)
    split
    · exact .next h
    · exact .next h
    · exact .next (h.same rfl rfl)
  | faults => exact leadsToSafe_portCommand h fun _ hu => hu.answer _
  | clearFaults => exact leadsToSafe_portCommand h fun _ hu => hu.clearFaults
  | exit levels =>
    exact leadsToSafe_portCommand (effect := fun u => u.restart .maintExit false levels) h
      fun u _ => safe_restart u .maintExit false levels

/-- Settles O53: a step carries a command out, or idles. -/
theorem haltedStationStaysAtRest : Obligations.HaltedStationStaysAtRest := by
  intro s t _ hsegment hhalt ht
  have h : Safe s := ⟨hsegment, hhalt⟩
  have hnext : Safe t := by
    unfold step at ht
    split at ht
    · cases ht
      exact h.idle
    · rename_i c rest _
      have hrest : Safe { s with pending := rest } := h.same rfl rfl
      exact leadsToSafe_exec hrest c t ht
  exact ⟨hnext.segment, hnext.halt⟩

end Sys2Proof.Machine
end

section
/-! The transmit queue (R138, R139): its class order, the places of a LOAD, and what a full queue gives up. -/

namespace Sys2Proof.Machine

variable {s : State} {e x : TxEntry} {q front back : List TxEntry} {p : TxEntry → Bool}

/-! ## Class order (R138) -/

/-- R138: the frames stand in the order of their classes. -/
def InClassOrder (q : List TxEntry) : Prop := q.Pairwise fun x y => x.body.cls ≤ y.body.cls

/-- R138: a frame enters between the frames of its class and of more urgent ones, and the less urgent ones. -/
theorem insertTx_split (e : TxEntry) : ∀ {q : List TxEntry}, InClassOrder q →
    ∃ front back, q = front ++ back ∧ (∀ x ∈ front, x.body.cls ≤ e.body.cls) ∧ (∀ x ∈ back, e.body.cls < x.body.cls) ∧
      insertTx e q = front ++ e :: back
  | [], _ => ⟨[], [], rfl, by simp, by simp, rfl⟩
  | x :: xs, h => by
    obtain ⟨hx, hxs⟩ := List.pairwise_cons.1 h
    by_cases hlt : e.body.cls < x.body.cls
    · exact ⟨[], x :: xs, rfl, by simp, List.forall_mem_cons.2 ⟨hlt, fun y hy => hlt.trans_le (hx y hy)⟩, if_pos hlt⟩
    · obtain ⟨front, back, hq, hf, hb, hi⟩ := insertTx_split e hxs
      exact ⟨x :: front, back, by rw [hq]; rfl, List.forall_mem_cons.2 ⟨Nat.le_of_not_lt hlt, hf⟩, hb,
        (if_neg hlt).trans (by rw [hi]; rfl)⟩

theorem InClassOrder.insertTx (h : InClassOrder q) (e : TxEntry) : InClassOrder (insertTx e q) := by
  obtain ⟨front, back, rfl, hf, hb, hi⟩ := insertTx_split e h
  obtain ⟨hfront, hback, hcross⟩ := List.pairwise_append.1 h
  rw [hi]
  refine List.pairwise_append.2 ⟨hfront, List.pairwise_cons.2 ⟨fun y hy => (hb y hy).le, hback⟩, fun x hx => ?_⟩
  exact List.forall_mem_cons.2 ⟨hf x hx, hcross x hx⟩

/-- A frame that takes the place of those of its class leaves the order as it is. -/
theorem InClassOrder.replace (h : InClassOrder q) (hp : ∀ x, p x = true → x.body.cls = e.body.cls) :
    InClassOrder (q.map fun x => if p x then e else x) := by
  have hcls (x : TxEntry) : (if p x then e else x).body.cls = x.body.cls := by
    split
    · exact (hp x ‹_›).symm
    · rfl
  exact List.pairwise_map.2 (h.imp fun hxy => by rwa [hcls, hcls])

/-! ## The frame that a full queue gives up (R139) -/

theorem removeLast_sublist : ∀ {q ys : List TxEntry}, removeLast p q = some (x, ys) → ys.Sublist q
  | [], _, h => by cases h
  | y :: q, ys, h => by
    unfold removeLast at h
    split at h
    · rename_i hr
      cases h
      exact (removeLast_sublist hr).cons_cons _
    · split at h
      · cases h
        exact List.sublist_cons_self _ _
      · cases h

theorem removeLast_last (hx : p x = true) (hb : ∀ y ∈ back, p y = false) :
    ∀ front : List TxEntry, removeLast p (front ++ x :: back) = some (x, front ++ back)
  | [] => by
    show removeLast p (x :: back) = some (x, back)
    rw [removeLast, removeLast_none hb]
    exact if_pos hx
  | y :: front => by
    show removeLast p (y :: (front ++ x :: back)) = some (x, y :: (front ++ back))
    rw [removeLast, removeLast_last hx hb front]

/-- R93: a claim that ends leaves the player IDLE with nothing in hand. -/
theorem endClaim_idle :
    ∃ player slots works, s.endClaim = { s with player := player, engine.slots := slots, works := works } ∧
      player.state = .idle ∧ player.current = none := by
  unfold State.endClaim
  split
  · rename_i request _
    obtain ⟨_, slots, ws, hr, -⟩ := returnSay_raises (e := request) (s :=
      { s with player.state := .idle, player.current := none, player.intentSent := false, player.windowEnd := none })
    exact ⟨_, slots, s.works ++ ws, hr, rfl, rfl⟩
  · rename_i hnone
    exact ⟨_, s.engine.slots, s.works, rfl, rfl, hnone⟩

/-- What a discarded frame does to the player: a waiting claim ends with its TALK_INTENT, and nothing else changes. -/
structure DiscardHeard (before after : Player) (e : TxEntry) : Prop where
  other : e.isIntent = false → after = before
  claim : e.isIntent = true → e.claim = before.claim → before.state = .settling → before.intentSent = false →
    after.state = .idle ∧ after.current = none ∧ after.bounced = true

/-- R91, R139: a frame is discarded, with LINE_OVERRUN and its class. -/
theorem discardTx_frame (s : State) (e : TxEntry) :
    ∃ player slots works,
      s.discardTx e = { s.recordFault .lineOverrun e.body.cls with
        player := player, engine.slots := slots, works := works } ∧ DiscardHeard s.player player e := by
  by_cases hi : e.isIntent = true
  · have hd : s.discardTx e = (s.recordFault .lineOverrun e.body.cls).intentDiscarded e.claim := if_pos hi
    have hother {player : Player} : e.isIntent = false → player = s.player := fun hn => by rw [hi] at hn; cases hn
    rw [hd]
    unfold State.intentDiscarded
    split
    · obtain ⟨player, slots, works, hend, hidle, hnone⟩ := endClaim_idle (s := s.recordFault .lineOverrun e.body.cls)
      rw [hend]
      exact ⟨_, slots, works, rfl, hother, fun _ _ _ _ => ⟨hidle, hnone, rfl⟩⟩
    · rename_i hstays
      exact ⟨s.player, s.engine.slots, s.works, rfl, hother, fun _ hc hs hw => absurd ⟨hs, hw, hc.symm⟩ hstays⟩
  · have hd : s.discardTx e = s.recordFault .lineOverrun e.body.cls := if_neg hi
    exact ⟨s.player, s.engine.slots, s.works, hd, fun _ => rfl, fun h => absurd h hi⟩

/-- R139: what entering a frame into a full queue does: the frame `lost` is discarded, with its class. -/
structure Displaces (s t : State) (queue : List TxEntry) (lost : TxEntry) : Prop where
  queue : t.line.queue = queue
  overrun :
    t.faults.records = mergeFault s.faults.records .lineOverrun (BitVec.ofNat 8 lost.body.cls) s.showTime
  heard : DiscardHeard s.player t.player lost

theorem displaces_discardTx (s : State) (queue : List TxEntry) (lost : TxEntry) :
    Displaces s ((s.setTxQueue queue).discardTx lost) queue lost := by
  obtain ⟨player, slots, works, hd, hheard⟩ := discardTx_frame (s.setTxQueue queue) lost
  rw [hd]
  exact ⟨rfl, rfl, hheard⟩

/-- A LOAD that waits, which any frame displaces. -/
def TxEntry.waitingLoad (x : TxEntry) : Bool := x.isLoad && !x.inTransmission

/-- A frame not in transmission that one of a more urgent class displaces. -/
def TxEntry.yieldsTo (x e : TxEntry) : Bool := !x.inTransmission && decide (e.body.cls < x.body.cls)

/-- R138, R139: what becomes of a frame that enters the queue, and of the queue. -/
theorem enterTx_cases (s : State) (e : TxEntry) :
    (s.line.queue.length < 8 ∧ s.enterTx e = s.setTxQueue (insertTx e s.line.queue)) ∨
    ¬s.line.queue.length < 8 ∧
      ((∃ x rest, (removeLast TxEntry.waitingLoad s.line.queue = some (x, rest) ∨
          removeLast TxEntry.waitingLoad s.line.queue = none ∧
            removeLast (TxEntry.yieldsTo · e) s.line.queue = some (x, rest)) ∧
          Displaces s (s.enterTx e) (insertTx e rest) x) ∨
        removeLast TxEntry.waitingLoad s.line.queue = none ∧ removeLast (TxEntry.yieldsTo · e) s.line.queue = none ∧
          Displaces s (s.enterTx e) s.line.queue e) := by
  unfold State.enterTx
  split
  · exact .inl ⟨‹_›, rfl⟩
  · refine .inr ⟨‹_›, ?_⟩
    split
    · rename_i x rest hx
      exact .inl ⟨x, rest, .inl hx, displaces_discardTx s _ x⟩
    · rename_i hno
      split
      · rename_i x rest hx
        exact .inl ⟨x, rest, .inr ⟨hno, hx⟩, displaces_discardTx s _ x⟩
      · rename_i hnone
        exact .inr ⟨hno, hnone, displaces_discardTx s s.line.queue e⟩

/-- R139: a full queue gives up the last of the LOADs that wait. -/
theorem enterTx_displacesLoad (hfull : s.line.queue.length = 8) (hq : s.line.queue = front ++ x :: back)
    (hx : x.waitingLoad = true) (hb : ∀ y ∈ back, y.waitingLoad = false) :
    Displaces s (s.enterTx e) (insertTx e (front ++ back)) x := by
  have hlast := removeLast_last hx hb front
  rw [← hq] at hlast
  rcases enterTx_cases s e with ⟨hroom, -⟩ | ⟨-, ⟨y, rest, hy | ⟨hnone, -⟩, hd⟩ | ⟨hnone, -⟩⟩
  · omega
  · cases hlast.symm.trans hy
    exact hd
  · cases hlast.symm.trans hnone
  · cases hlast.symm.trans hnone

/-- R139: with no LOAD that waits, a full queue gives up the last frame of a less urgent class not in transmission. -/
theorem enterTx_displacesLast (hfull : s.line.queue.length = 8) (hno : ∀ y ∈ s.line.queue, y.waitingLoad = false)
    (hq : s.line.queue = front ++ x :: back) (hx : x.yieldsTo e = true) (hb : ∀ y ∈ back, y.yieldsTo e = false) :
    Displaces s (s.enterTx e) (insertTx e (front ++ back)) x := by
  have hload := removeLast_none hno
  have hlast := removeLast_last (p := (TxEntry.yieldsTo · e)) hx hb front
  rw [← hq] at hlast
  rcases enterTx_cases s e with ⟨hroom, -⟩ | ⟨-, ⟨y, rest, hy | ⟨-, hy⟩, hd⟩ | ⟨-, hnone, -⟩⟩
  · omega
  · cases hload.symm.trans hy
  · cases hlast.symm.trans hy
    exact hd
  · cases hlast.symm.trans hnone

/-- R139: a frame that nothing in a full queue gives way to is discarded itself. -/
theorem enterTx_discarded (hfull : s.line.queue.length = 8) (hno : ∀ y ∈ s.line.queue, y.waitingLoad = false)
    (hstay : ∀ y ∈ s.line.queue, y.yieldsTo e = false) : Displaces s (s.enterTx e) s.line.queue e := by
  have hload := removeLast_none hno
  have hless := removeLast_none (p := (TxEntry.yieldsTo · e)) hstay
  rcases enterTx_cases s e with ⟨hroom, -⟩ | ⟨-, ⟨y, rest, hy | ⟨-, hy⟩, -⟩ | ⟨-, -, hd⟩⟩
  · omega
  · cases hload.symm.trans hy
  · cases hless.symm.trans hy
  · exact hd

/-! ## Handing a frame over -/

/-- The entry that a frame makes in the transmit queue. -/
def newEntry (s : State) (body : FrameBody) : TxEntry := ⟨body, s.now, false, 0⟩

theorem newEntry_isLoad {body : FrameBody} : (newEntry s body).isLoad = true ↔ body.kind = .load := beq_iff_eq

theorem cls_of_isLoad (h : x.isLoad = true) : x.body.cls = 3 := by
  have hk : x.body.kind = .load := beq_iff_eq.1 h
  unfold FrameBody.cls
  rw [hk]
  rfl

theorem isIntent_of_isLoad (h : x.isLoad = true) : x.isIntent = false := by
  have hk : x.body.kind = .load := beq_iff_eq.1 h
  unfold TxEntry.isIntent
  rw [hk]
  rfl

theorem handOver_held {body : FrameBody} (hk : body.kind = .load)
    (ht : ∃ x ∈ s.line.queue, x.isLoad = true ∧ x.inTransmission = true) :
    s.handOver body = { s with line.heldLoad := some (newEntry s body) } :=
  (if_pos (newEntry_isLoad.2 hk)).trans (if_pos (List.any_eq_true.2 (by simpa using ht)))

theorem handOver_replaces {body : FrameBody} (hk : body.kind = .load) (hw : ∃ x ∈ s.line.queue, x.isLoad = true)
    (ht : ∀ x ∈ s.line.queue, x.isLoad = true → x.inTransmission = false) :
    s.handOver body =
      { s with line.queue := s.line.queue.map fun x => if x.isLoad then newEntry s body else x } := by
  have hloading : ¬(s.line.queue.any fun x => x.isLoad && x.inTransmission) = true := by
    rw [any_loading_false ht]
    decide
  exact (if_pos (newEntry_isLoad.2 hk)).trans ((if_neg hloading).trans (if_pos (List.any_eq_true.2 hw)))

/-- R138: a frame other than a LOAD enters the queue, and so does a LOAD with none in the queue. -/
theorem handOver_enters {body : FrameBody} (h : body.kind ≠ .load ∨ ∀ x ∈ s.line.queue, x.isLoad = false) :
    s.handOver body = s.enterTx (newEntry s body) := by
  by_cases hk : body.kind = .load
  · have hno := h.resolve_left (not_not.2 hk)
    have hloading := any_loading_false fun x hx hl => absurd hl (by rw [hno x hx]; decide)
    unfold State.handOver State.handOverFor
    simp only [hloading, any_isLoad_false hno]
    exact if_pos (newEntry_isLoad.2 hk)
  · exact handOver_enterTx hk

/-- R138, R139: the queue once a frame is handed over: as it was, with the LOAD in it replaced, or with the frame entered
among frames of the queue that leave it room. -/
theorem handOver_queue (s : State) (body : FrameBody) :
    (s.handOver body).line.queue = s.line.queue ∨
    (body.kind = .load ∧ (s.handOver body).line.queue =
      s.line.queue.map fun x => if x.isLoad then newEntry s body else x) ∨
    ∃ rest, rest.Sublist s.line.queue ∧ (s.line.queue.length < 8 ∨ rest.length < s.line.queue.length) ∧
      (s.handOver body).line.queue = insertTx (newEntry s body) rest := by
  by_cases h : body.kind ≠ .load ∨ ∀ x ∈ s.line.queue, x.isLoad = false
  · rw [handOver_enters h]
    rcases enterTx_cases s (newEntry s body) with ⟨hroom, he⟩ | ⟨-, ⟨x, rest, hx, hd⟩ | ⟨-, -, hd⟩⟩
    · exact .inr (.inr ⟨_, .refl _, .inl hroom, by rw [he]; rfl⟩)
    · obtain ⟨p, hr⟩ : ∃ p, removeLast p s.line.queue = some (x, rest) := hx.elim (⟨_, ·⟩) fun hx => ⟨_, hx.2⟩
      exact .inr (.inr ⟨rest, removeLast_sublist hr, .inr (by have := removeLast_length hr; omega), hd.queue⟩)
    · exact .inl hd.queue
  · obtain ⟨hk, hw⟩ := not_or.1 h
    have hk : body.kind = .load := not_not.1 hk
    by_cases ht : ∃ x ∈ s.line.queue, x.isLoad = true ∧ x.inTransmission = true
    · exact .inl (by rw [handOver_held hk ht])
    · refine .inr (.inl ⟨hk, ?_⟩)
      rw [handOver_replaces hk (by simpa using hw) fun x hx hl => by
        simpa using fun hi => ht ⟨x, hx, hl, hi⟩]

theorem handOver_inClassOrder {body : FrameBody} (h : InClassOrder s.line.queue) :
    InClassOrder (s.handOver body).line.queue := by
  rcases handOver_queue s body with hq | ⟨hk, hq⟩ | ⟨rest, hrest, -, hq⟩ <;> rw [hq]
  · exact h
  · exact h.replace fun x hx => (cls_of_isLoad hx).trans (cls_of_isLoad (newEntry_isLoad.2 hk)).symm
  · exact InClassOrder.insertTx (h.sublist hrest) _

theorem handOver_length {body : FrameBody} (h : s.line.queue.length ≤ 8) : (s.handOver body).line.queue.length ≤ 8 := by
  rcases handOver_queue s body with hq | ⟨-, hq⟩ | ⟨rest, hrest, hroom, hq⟩ <;> rw [hq]
  · exact h
  · rwa [List.length_map]
  · have := hrest.length_le
    rw [insertTx_length]
    omega

/-- Settles O37: the places of a LOAD, the place of a frame in a queue with room, and the displacement by what a full
queue holds. -/
theorem transmitQueueKeepsOrder : Obligations.TransmitQueueKeepsOrder := by
  intro s body hord hlen q e t enters overrun
  have hwaiting {x : TxEntry} (h : x.isLoad = false ∨ x.inTransmission = true) : x.waitingLoad = false := by
    rcases h with h | h <;> simp [TxEntry.waitingLoad, h]
  have hstays {x : TxEntry} (h : x.inTransmission = true ∨ x.body.cls ≤ body.cls) : x.yieldsTo e = false := by
    rcases h with h | h <;> simp [TxEntry.yieldsTo, e, h]
  have henters (h : enters) : s.enterTx e = t := (handOver_enters h).symm
  refine ⟨handOver_inClassOrder hord, handOver_length hlen, handOver_held, handOver_replaces, fun h hroom => ?_,
    fun h hfull => ⟨fun front x back hq hl ht hb => ?_, fun hno => ?_⟩⟩
  · obtain ⟨front, back, hq, hf, hb, hi⟩ := insertTx_split e hord
    exact ⟨front, back, hq, hf, hb, (henters h).symm.trans ((if_pos hroom).trans (by rw [← hi]; rfl))⟩
  · have hd : Displaces s t _ x := henters h ▸
      enterTx_displacesLoad hfull hq (by simp [TxEntry.waitingLoad, hl, ht]) fun y hy => hwaiting (hb y hy)
    exact ⟨hd.queue, cls_of_isLoad hl ▸ hd.overrun, hd.heard.other (isIntent_of_isLoad hl)⟩
  · have hnoLoad : ∀ y ∈ s.line.queue, y.waitingLoad = false := fun y hy => hwaiting (hno y hy)
    refine ⟨fun front x back hq ht hc hb => ?_, fun hall => ?_⟩
    · have hx : x.yieldsTo e = true := by simpa [TxEntry.yieldsTo, ht] using hc
      have hd : Displaces s t _ x := henters h ▸
        enterTx_displacesLast hfull hnoLoad hq hx fun y hy => hstays (hb y hy)
      exact ⟨hd.queue, hd.overrun, hd.heard.claim, hd.heard.other⟩
    · have hd : Displaces s t _ e := henters h ▸ enterTx_discarded hfull hnoLoad fun y hy => hstays (hall y hy)
      exact ⟨hd.queue, hd.overrun⟩

end Sys2Proof.Machine
end

section
/-! The bits of a frame (R169): each field stands at its place, and the fields read back. -/

namespace Sys2Proof

variable {w offset : Nat} {bits : List Bool} {x : BitVec w} {f : Frame}

/-! ## A field in a run of bits -/

@[simp] theorem bitsMsbFirst_length (x : BitVec w) : (bitsMsbFirst x).length = w := by simp [bitsMsbFirst]

theorem bitsMsbFirst_getElem? (x : BitVec w) {i : Nat} (hi : i < w) : (bitsMsbFirst x)[i]? = some (x.getMsbD i) := by
  simp [bitsMsbFirst, hi]

/-- The first `n` bits sent of a word spell its high part. -/
theorem beBits_range (x : BitVec w) :
    ∀ n ≤ w, beBits ((List.range n).map fun i => x.getMsbD i) = x.toNat / 2 ^ (w - n)
  | 0, _ => (Nat.div_eq_of_lt x.isLt).symm
  | n + 1, hn => by
    have hbit : (x.getMsbD n).toNat = x.toNat / 2 ^ (w - (n + 1)) % 2 := by
      rw [BitVec.getMsbD_eq_getLsbD, decide_eq_true (by omega : n < w), Bool.true_and, ← BitVec.testBit_toNat,
        Nat.toNat_testBit, show w - 1 - n = w - (n + 1) by omega]
    have hhigh : x.toNat / 2 ^ (w - n) = x.toNat / 2 ^ (w - (n + 1)) / 2 := by
      rw [Nat.div_div_eq_div_mul, ← Nat.pow_succ, show (w - (n + 1)).succ = w - n by omega]
    have hstep : beBits ((List.range (n + 1)).map fun i => x.getMsbD i) =
        beBits ((List.range n).map fun i => x.getMsbD i) * 2 + (x.getMsbD n).toNat := by
      simp [beBits, List.range_succ]
    rw [hstep, beBits_range x n (by omega), hbit, hhigh]
    omega

theorem beBits_bitsMsbFirst (x : BitVec w) : beBits (bitsMsbFirst x) = x.toNat := by
  have h := beBits_range x w (Nat.le_refl w)
  rwa [Nat.sub_self, Nat.pow_zero, Nat.div_one] at h

/-- A word stands in a run of bits from an offset on, most significant bit first. -/
def SpelledAt (bits : List Bool) (offset : Nat) (x : BitVec w) : Prop :=
  ∃ front back, bits = front ++ (bitsMsbFirst x ++ back) ∧ front.length = offset

theorem SpelledAt.bit (h : SpelledAt bits offset x) {i : Nat} (hi : i < w) :
    bits[offset + i]? = some (x.getMsbD i) := by
  obtain ⟨front, back, rfl, rfl⟩ := h
  rw [List.getElem?_append_right (Nat.le_add_right _ _), Nat.add_sub_cancel_left,
    List.getElem?_append_left (by rwa [bitsMsbFirst_length]), bitsMsbFirst_getElem? x hi]

theorem SpelledAt.bitField (h : SpelledAt bits offset x) : bitField bits offset w = x := by
  obtain ⟨front, back, rfl, rfl⟩ := h
  unfold Sys2Proof.bitField
  rw [List.drop_left, List.take_left' (bitsMsbFirst_length x), beBits_bitsMsbFirst, BitVec.ofNat_toNat,
    BitVec.setWidth_eq]

/-! ## The fields of a frame -/

theorem payloadBits_length (bytes : List Byte) : (bytes.flatMap bitsMsbFirst).length = 8 * bytes.length := by
  induction bytes with
  | nil => rfl
  | cons b bytes ih => rw [List.flatMap_cons, List.length_append, bitsMsbFirst_length, ih, List.length_cons]; omega

theorem bits_length (f : Frame) : f.bits.length = 40 + 8 * f.payload.length := by
  simp only [Frame.bits, List.length_cons, List.length_append, bitsMsbFirst_length, payloadBits_length]
  omega

theorem header_spelled (f : Frame) : SpelledAt f.bits 1 f.header :=
  ⟨[false], f.payload.flatMap bitsMsbFirst ++ bitsMsbFirst f.crc ++ bitsMsbFirst f.endField, by simp [Frame.bits], rfl⟩

theorem payload_spelled {j : Nat} {b : Byte} (h : f.payload[j]? = some b) : SpelledAt f.bits (17 + 8 * j) b := by
  obtain ⟨hj, hb⟩ := List.getElem?_eq_some_iff.1 h
  have hsplit : f.payload = f.payload.take j ++ b :: f.payload.drop (j + 1) := by
    rw [← hb, List.getElem_cons_drop, List.take_append_drop]
  refine ⟨false :: (bitsMsbFirst f.header ++ (f.payload.take j).flatMap bitsMsbFirst),
    (f.payload.drop (j + 1)).flatMap bitsMsbFirst ++ bitsMsbFirst f.crc ++ bitsMsbFirst f.endField, ?_, ?_⟩
  · have hbits : f.payload.flatMap bitsMsbFirst = (f.payload.take j).flatMap bitsMsbFirst ++
        (bitsMsbFirst b ++ (f.payload.drop (j + 1)).flatMap bitsMsbFirst) := by
      rw [← List.flatMap_cons, ← List.flatMap_append, ← hsplit]
    simp [Frame.bits, hbits]
  · simp only [List.length_cons, List.length_append, bitsMsbFirst_length, payloadBits_length, List.length_take]
    omega

theorem crc_spelled (f : Frame) : SpelledAt f.bits (17 + 8 * f.payload.length) f.crc := by
  refine ⟨false :: (bitsMsbFirst f.header ++ f.payload.flatMap bitsMsbFirst), bitsMsbFirst f.endField,
    by simp [Frame.bits], ?_⟩
  simp only [List.length_cons, List.length_append, bitsMsbFirst_length, payloadBits_length]
  omega

theorem endField_spelled (f : Frame) : SpelledAt f.bits (33 + 8 * f.payload.length) f.endField := by
  refine ⟨false :: (bitsMsbFirst f.header ++ f.payload.flatMap bitsMsbFirst ++ bitsMsbFirst f.crc), [],
    by simp [Frame.bits], ?_⟩
  simp only [List.length_cons, List.length_append, bitsMsbFirst_length, payloadBits_length]
  omega

/-- R169: a frame whose header gives its payload length reads back from its bits. -/
theorem frameOfBits_bits (h : f.length = f.payload.length) : frameOfBits f.bits = some f := by
  have hlen : ((bitField f.bits 1 16).extractLsb' 0 4).toNat = f.payload.length := by
    rw [(header_spelled f).bitField]
    exact h
  have hpayload : ((List.range f.payload.length).map fun i => bitField f.bits (17 + 8 * i) 8) = f.payload := by
    refine List.ext_getElem (by simp) fun j hj hj' => ?_
    rw [List.getElem_map, List.getElem_range]
    exact (payload_spelled (List.getElem?_eq_getElem hj')).bitField
  unfold frameOfBits
  simp only [hlen]
  rw [if_pos ⟨rfl, (bits_length f).ge⟩, hpayload, (header_spelled f).bitField, (crc_spelled f).bitField,
    (endField_spelled f).bitField]

/-! ## The header and the payload of a frame that a station sends -/

theorem FrameKind.code_lt (k : FrameKind) : k.code < 16 := by cases k <;> decide

theorem FrameKind.length_lt (k : FrameKind) : k.length < 16 := by cases k <;> decide

theorem FrameKind.cls_lt (k : FrameKind) : k.cls < 4 := by cases k <;> decide

section
open BitVec

theorem encodeFrame_cls (source : Nat) (body : FrameBody) : (encodeFrame source body).cls = body.cls := by
  have h : (frameHeader body.kind source).extractLsb' 14 2 = BitVec.ofNat 2 body.kind.cls := by
    unfold frameHeader
    rw [extractLsb'_append_eq_of_le (by decide), extractLsb'_append_eq_of_le (by decide), extractLsb'_append_eq_left]
  exact (congrArg BitVec.toNat h).trans ((toNat_ofNat _ _).trans (Nat.mod_eq_of_lt body.kind.cls_lt))

theorem encodeFrame_source {source : Nat} (body : FrameBody) (hs : source ≤ 62) :
    (encodeFrame source body).source = source := by
  have h : (frameHeader body.kind source).extractLsb' 8 6 = BitVec.ofNat 6 source := by
    unfold frameHeader
    rw [extractLsb'_append_eq_of_le (by decide), extractLsb'_append_eq_of_le (by decide), extractLsb'_append_eq_right]
  exact (congrArg BitVec.toNat h).trans ((toNat_ofNat _ _).trans (Nat.mod_eq_of_lt (by omega)))

theorem encodeFrame_kindCode (source : Nat) (body : FrameBody) :
    (encodeFrame source body).kindCode = body.kind.code := by
  have h : (frameHeader body.kind source).extractLsb' 4 4 = BitVec.ofNat 4 body.kind.code := by
    unfold frameHeader
    rw [extractLsb'_append_eq_of_le (by decide), extractLsb'_append_eq_right]
  exact (congrArg BitVec.toNat h).trans ((toNat_ofNat _ _).trans (Nat.mod_eq_of_lt body.kind.code_lt))

theorem encodeFrame_length (source : Nat) (body : FrameBody) :
    (encodeFrame source body).length = body.kind.length := by
  have h : (frameHeader body.kind source).extractLsb' 0 4 = BitVec.ofNat 4 body.kind.length := extractLsb'_append_eq_right
  exact (congrArg BitVec.toNat h).trans ((toNat_ofNat _ _).trans (Nat.mod_eq_of_lt body.kind.length_lt))

end

theorem payload_length (body : FrameBody) : body.payload.length = body.kind.length := by cases body <;> rfl

/-- R141: a frame that a station sends is valid as a frame of its kind. -/
theorem encodeFrame_valid {source : Nat} (body : FrameBody) (hs : 1 ≤ source) (hs' : source ≤ 62) :
    (encodeFrame source body).valid body.kind = true := by
  have hcrc : (encodeFrame source body).crc =
      frameCrc (encodeFrame source body).header (encodeFrame source body).payload := rfl
  have hend : (encodeFrame source body).endField = 0x7F#7 := rfl
  have hpayload : (encodeFrame source body).payload.length = body.kind.length := payload_length body
  simp [Frame.valid, hend, ← hcrc, hpayload, encodeFrame_kindCode, encodeFrame_cls, FrameBody.cls, encodeFrame_length,
    encodeFrame_source body hs', hs, hs']

theorem byte_toNat {n : Nat} (h : n < 256) : (BitVec.ofNat 8 n).toNat = n := by
  rw [BitVec.toNat_ofNat, Nat.mod_eq_of_lt h]

theorem lowBits_toNat {n m : Nat} (h : n < m) (hm : m ≤ 256) : (BitVec.ofNat 8 n).toNat % m = n := by
  rw [byte_toNat (h.trans_le hm), Nat.mod_eq_of_lt h]

theorem word_toNat {n : Nat} (h : n < 65536) :
    (BitVec.ofNat 8 (n / 256)).toNat * 256 + (BitVec.ofNat 8 n).toNat = n := by
  simp only [BitVec.toNat_ofNat]
  omega

/-- R169: a receiver reads the values that a frame was made from, where each fits its field. -/
theorem readBody_encodeFrame {body : FrameBody} (source : Nat) (h : body.fits = true) :
    readBody body.kind (encodeFrame source body) = body := by
  cases body with
  | halt reason => cases reason <;> rfl
  | resume => rfl
  | talkIntent priority duration =>
    obtain ⟨hp, hd⟩ : priority < 8 ∧ duration < 65536 := by simpa [FrameBody.fits] using h
    exact congrArg₂ FrameBody.talkIntent (lowBits_toNat hp (by decide)) (word_toNat hd)
  | talkBusy dest priority remaining =>
    obtain ⟨⟨hd, hp⟩, hr⟩ : (dest < 256 ∧ priority < 8) ∧ remaining < 65536 := by simpa [FrameBody.fits] using h
    exact congr (congrArg₂ FrameBody.talkBusy (byte_toNat hd) (lowBits_toNat hp (by decide))) (word_toNat hr)
  | talkEnd => rfl
  | blockAsk dest speedClass =>
    obtain ⟨hd, hc⟩ : dest < 256 ∧ speedClass < 4 := by simpa [FrameBody.fits] using h
    exact congrArg₂ FrameBody.blockAsk (byte_toNat hd) (lowBits_toNat hc (by decide))
  | blockGrant dest =>
    have hd : dest < 256 := by simpa [FrameBody.fits] using h
    exact congrArg FrameBody.blockGrant (byte_toNat hd)
  | blockHeld dest cause =>
    have hd : dest < 256 := by simpa [FrameBody.fits] using h
    have hcause : heldCauseOf ((encodeFrame source (.blockHeld dest cause)).byte 1) = cause := by
      cases cause <;> rfl
    exact congrArg₂ FrameBody.blockHeld (byte_toNat hd) hcause
  | blockRelease dest outcome =>
    have hd : dest < 256 := by simpa [FrameBody.fits] using h
    have houtcome : releaseOutcomeOf ((encodeFrame source (.blockRelease dest outcome)).byte 1) = outcome := by
      cases outcome <;> rfl
    exact congrArg₂ FrameBody.blockRelease (byte_toNat hd) houtcome
  | cue dest tag =>
    obtain ⟨hd, ht⟩ : dest < 256 ∧ tag < 256 := by simpa [FrameBody.fits] using h
    exact congrArg₂ FrameBody.cue (byte_toNat hd) (byte_toNat ht)
  | load demand group halted =>
    obtain ⟨hd, hg⟩ : demand < 65536 ∧ group < 8 := by simpa [FrameBody.fits] using h
    have hhalted : decide ((if halted then 1#8 else 0#8).toNat % 2 = 1) = halted := by cases halted <;> rfl
    exact congr (congrArg₂ FrameBody.load (word_toNat hd) (lowBits_toNat hg (by decide))) hhalted

theorem wellFormed_frameCommand (k : FrameKind) (f : Frame) : WellFormed (Machine.frameCommand k f) = frameOfKind k f := by
  cases k <;> rfl

/-- Settles O58: each field is spelled at its place, and the fields are those that the body gives. -/
theorem framesReadBackAsSent : Obligations.FramesReadBackAsSent := by
  intro source body hs hs' hfits f n
  have hlength : f.length = n := (encodeFrame_length source body).trans (payload_length body).symm
  refine ⟨bits_length f, rfl, fun i hi => (header_spelled f).bit hi, fun j b hb i hi => (payload_spelled hb).bit hi,
    fun i hi => (crc_spelled f).bit hi, fun i hi => ?_, frameOfBits_bits hlength, encodeFrame_valid body hs hs',
    encodeFrame_source body hs', readBody_encodeFrame source hfits, ?_⟩
  · have hone : (0x7F#7).getMsbD i = true := (by decide : ∀ i < 7, (0x7F#7).getMsbD i = true) i hi
    exact ((endField_spelled f).bit hi).trans (congrArg some hone)
  · rw [wellFormed_frameCommand]
    exact Bool.and_eq_true_iff.2 ⟨beq_iff_eq.2 (encodeFrame_kindCode source body), beq_iff_eq.2 hlength.symm⟩

end Sys2Proof
end

section
/-! The fault list (R153, R155): what recording one fault leaves, and when the staff outputs are asserted. -/

namespace Sys2Proof.Machine

variable {s : State} {records : List FaultRecord} {kind : FaultKind} {detail : Byte} {time : BitVec 32}

/-! ## Recording (R153) -/

theorem mergeFault_repeated {older : List FaultRecord} {r : FaultRecord} (hk : r.kind = kind) (hd : r.detail = detail) :
    mergeFault (older ++ [r]) kind detail time = older ++ [{ r with last := time, count := min 255 (r.count + 1) }] := by
  unfold mergeFault
  rw [List.getLast?_concat]
  exact (if_pos ⟨hk, hd⟩).trans (by rw [List.dropLast_concat])

theorem mergeFault_other (h : ∀ r, records.getLast? = some r → r.kind ≠ kind ∨ r.detail ≠ detail) :
    mergeFault records kind detail time = appendRecord records ⟨kind, detail, time, time, 0⟩ := by
  unfold mergeFault
  cases hlast : records.getLast? with
  | none => rw [List.getLast?_eq_none_iff.1 hlast]; rfl
  | some r => exact if_neg fun ⟨hk, hd⟩ => (h r hlast).elim (· hk) (· hd)

/-- R153: the oldest of eight records goes, and none of fewer. -/
theorem appendRecord_eq_drop (r : FaultRecord) (h : records.length ≤ 8) :
    appendRecord records r = records.drop (records.length + 1 - 8) ++ [r] := by
  unfold appendRecord
  split
  case isTrue hroom => rw [show records.length + 1 - 8 = 0 by omega, List.drop_zero]
  case isFalse hfull => rw [show records.length + 1 - 8 = 1 by omega, List.drop_one]

/-! ## The staff outputs (R155) -/

theorem faultOutput_indicators (h : s.phase = .running) : s.indicators.faults.faultOutput = true ↔
    ∃ r ∈ s.faults.records, s.settings.faultMask.getLsbD (r.kind.code - 1) = true := by
  have hshow : s.inShow = true := beq_iff_eq.2 h
  simp only [State.indicators, hshow, Bool.true_and, List.any_eq_true, inMask]

theorem attendOutput_indicators (h : s.phase = .running) : s.indicators.faults.attendOutput = true ↔
    ∃ r ∈ s.faults.records, s.settings.attendMask.getLsbD (r.kind.code - 1) = true := by
  have hshow : s.inShow = true := beq_iff_eq.2 h
  simp only [State.indicators, hshow, Bool.true_and, List.any_eq_true, inMask]

theorem indicators_out_of_show (h : s.phase ≠ .running) :
    s.indicators = { s with faults := ⟨s.faults.records, false, false⟩ } := by
  have hshow : s.inShow = false := beq_eq_false_iff_ne.2 h
  simp only [State.indicators, hshow, Bool.false_and]

/-- Settles O15: the new list is the merged or the appended one, and the outputs are evaluated on it. -/
theorem faultListMergesAndKeepsEight : Obligations.FaultListMergesAndKeepsEight := by
  intro s kind detail hphase hlen t new
  exact ⟨rfl, mergeFault_length kind new.detail s.showTime hlen,
    fun older r hrecords hk hd =>
      (congrArg (mergeFault · kind new.detail s.showTime) hrecords).trans (mergeFault_repeated hk hd),
    fun hother => (mergeFault_other hother).trans (appendRecord_eq_drop new hlen),
    faultOutput_indicators hphase, attendOutput_indicators hphase⟩

end Sys2Proof.Machine
end

section
/-! Restarts that do not enter the show, and the loss of the supply or of RESET (R156, R158, R161, R168). -/

namespace Sys2Proof.Machine

variable {s : State} {cause : RestartCause} {levels : Levels}

/-! ## Faults recorded outside the show -/

/-- The station outside its show: its queue, draws and show memory kept, its fault records given, all else at rest. -/
def atRest (s : State) (phase : Phase) (records : List FaultRecord) : State :=
  { restarted s.pending s.draws s.memory ⟨records, false, false⟩ with phase := phase }

theorem blank_eq_atRest (phase : Phase) : s.blank phase = atRest s phase s.faults.records := rfl

theorem recordFault_atRest {phase : Phase} (h : phase ≠ .running) (records : List FaultRecord) (kind : FaultKind)
    (detail : Nat) : (atRest s phase records).recordFault kind detail =
      atRest s phase (mergeFault records kind (BitVec.ofNat 8 detail) 0) := by
  have htime : (atRest s phase records).showTime = 0 :=
    restarted_showTime s.pending s.draws s.memory ⟨records, false, false⟩
  unfold State.recordFault
  rw [htime]
  exact indicators_out_of_show h

/-! ## The two restarts (R158, R161) -/

theorem restart_maintenance (h : cause ≠ .maintExit) : s.restart cause true levels =
    atRest s .maintenance (mergeFault s.faults.records .restart (BitVec.ofNat 8 cause.code) 0) := by
  have hlow : (true && cause != .maintExit) = true := bne_iff_ne.2 h
  unfold State.restart
  rw [blank_eq_atRest, recordFault_atRest (by decide), if_pos hlow]
  rfl

theorem restart_unconfigured {why : ConfigCause} (h : configCheck s.memory = some why) : s.restart cause false levels =
    atRest s .unconfigured
      (mergeFault (mergeFault s.faults.records .restart (BitVec.ofNat 8 cause.code) 0) .configInvalid
        (BitVec.ofNat 8 why.code) 0) := by
  have hcheck (records : List FaultRecord) : configCheck (atRest s .unconfigured records).memory = some why := h
  unfold State.restart
  rw [blank_eq_atRest, recordFault_atRest (by decide), Bool.false_and, if_neg Bool.false_ne_true]
  unfold State.intoShow
  rw [hcheck]
  exact recordFault_atRest (by decide) _ _ _

/-- R170: the coded detail of a CONFIG_INVALID record. -/
theorem configCause_detail (why : ConfigCause) : BitVec.ofNat 8 why.code = if why = .format then 0 else 1 := by
  cases why <;> rfl

/-! ## Power and RESET (R156, R168) -/

theorem exec_powerOn {low : Bool} : exec (.powerOn low levels) s =
    .next (State.restart { s.cutOperation with faults.records := [] } .powerOn low levels) := rfl

theorem exec_resetRelease {low : Bool} (h : s.phase ≠ .powerOff) :
    exec (.resetRelease low levels) s = .next (s.cutOperation.restart .resetPin low levels) := if_neg h

theorem exec_resetAssert (h : s.phase ≠ .powerOff) : exec .resetAssert s = .next (s.cutOperation.blank .heldInReset) :=
  if_neg h

/-- R168: a cut operation leaves the queue of commands alone. -/
theorem atRest_cutOperation (s : State) (phase : Phase) (records : List FaultRecord) :
    atRest s.cutOperation phase records = { atRest s.cutOperation phase records with pending := s.pending } :=
  congrArg (fun p => { atRest s.cutOperation phase records with pending := p }) (cutOperation_frame s).1

/-- Settles O3: each cause leaves its records, and all else at rest. -/
theorem restartWithoutAShow : Obligations.RestartWithoutAShow := by
  intro s levels m rest
  have hfaults : s.cutOperation.faults = s.faults := (cutOperation_frame s).2
  refine ⟨?_, fun hoff => ?_, fun why hwhy => ?_⟩
  · rw [exec_powerOn, restart_maintenance (by decide)]
    exact congrArg _ (atRest_cutOperation s _ _)
  · rw [exec_resetRelease hoff, restart_maintenance (by decide), ← hfaults]
    exact congrArg _ (atRest_cutOperation s _ _)
  · rw [← configCause_detail, ← hfaults]
    refine ⟨?_, fun hoff => ?_, fun hfree => ?_⟩
    · rw [exec_powerOn, restart_unconfigured (s := { s.cutOperation with faults.records := [] }) hwhy]
      exact congrArg _ (atRest_cutOperation s _ _)
    · rw [exec_resetRelease hoff, restart_unconfigured hwhy]
      exact congrArg _ (atRest_cutOperation s _ _)
    · have hcut := cutOperation_free hfree.operation
      have hexit : exec (.exit levels) s = .next ((s.cutOperation.answer []).restart .maintExit false levels) := by
        rw [hcut]
        exact exec_exit hfree
      rw [hexit, restart_unconfigured (s := s.cutOperation.answer []) hwhy]
      exact congrArg _ (atRest_cutOperation s _ _)

/-- Settles O5: with no operation to cut short, what is left is blank. -/
theorem supplyAndResetBlankTheStation : Obligations.SupplyAndResetBlankTheStation := by
  intro s low levels blank
  refine ⟨fun hoff => ⟨if_pos hoff, if_pos hoff⟩, fun hfree => ?_⟩
  have hcut := cutOperation_free hfree
  refine ⟨?_, fun hon => ?_, ?_⟩
  · exact congrArg (fun t : State => Host.Outcome.next (t.blank .powerOff)) hcut
  · rw [exec_resetAssert hon, hcut]; rfl
  · exact congrArg (fun t : State => Host.Outcome.next (State.blank { t with faults.records := [] } .heldInReset)) hcut

end Sys2Proof.Machine
end

section
/-! The answers of the maintenance port (R163, R164, R170). -/

namespace Sys2Proof.Machine

variable {s : State}

/-! ## Commands while the port is free -/

theorem portCommand_free {n : Nat} {effect : State → State} (h : PortFree s) :
    portCommand n effect s = .next (effect (s.answer [])) := by
  have hin : s.inMaintenance = true := beq_iff_eq.2 h.phase
  have hbusy : ¬s.busy = true := by rw [State.busy, h.operation]; exact Bool.false_ne_true
  exact (if_pos hin).trans (if_neg hbusy)

theorem exec_identify (h : PortFree s) : exec .identify s = .next (s.answer identity) :=
  portCommand_free (effect := fun t => t.answer identity) h

theorem exec_faults (h : PortFree s) : exec .faults s = .next (s.answer (faultsAnswer s.faults.records)) :=
  portCommand_free (effect := fun t => t.answer (faultsAnswer t.faults.records)) h

theorem exec_clearFaults (h : PortFree s) :
    exec .clearFaults s = .next { s.answer [] with faults := ⟨[], false, false⟩ } := by
  have hphase : s.phase ≠ .running := by rw [h.phase]; decide
  refine (portCommand_free (effect := fun t => State.indicators { t with faults.records := [] }) h).trans (congrArg _ ?_)
  exact indicators_out_of_show hphase

/-! ## STATUS (R163) -/

theorem exec_status (h : s.phase = .maintenance) : exec .status s = .next (s.answer [s.statusByte]).clearFlags :=
  if_pos (beq_iff_eq.2 h)

/-- R170: the flags stand in bits 0 to 4 of the status byte, and the bits above are 0. -/
theorem statusBits : ∀ busy committed erased late refused : Bool,
    let b := BitVec.ofNat 8
      (busy.toNat + 2 * committed.toNat + 4 * erased.toNat + 8 * late.toNat + 16 * refused.toNat)
    b.getLsbD 0 = busy ∧ b.getLsbD 1 = committed ∧ b.getLsbD 2 = erased ∧ b.getLsbD 3 = late ∧
      b.getLsbD 4 = refused ∧ b.getLsbD 5 = false ∧ b.getLsbD 6 = false ∧ b.getLsbD 7 = false := by
  decide

/-! ## FAULTS (R164) -/

theorem byte_of_quotient (x : BitVec 32) (k : Nat) : BitVec.ofNat 8 (x.toNat / 2 ^ k) = x.extractLsb' k 8 := by
  rw [BitVec.extractLsb', Nat.shiftRight_eq_div_pow]

theorem be32_toNat (x : BitVec 32) :
    be32 x.toNat = [x.extractLsb' 24 8, x.extractLsb' 16 8, x.extractLsb' 8 8, x.extractLsb' 0 8] := by
  rw [← byte_of_quotient x 24, ← byte_of_quotient x 16, ← byte_of_quotient x 8, ← byte_of_quotient x 0, pow_zero,
    Nat.div_one]
  rfl

theorem faultRecord_bytes (r : FaultRecord) : r.bytes =
    [BitVec.ofNat 8 r.kind.code, r.detail, r.first.extractLsb' 24 8, r.first.extractLsb' 16 8,
      r.first.extractLsb' 8 8, r.first.extractLsb' 0 8, r.last.extractLsb' 24 8, r.last.extractLsb' 16 8,
      r.last.extractLsb' 8 8, r.last.extractLsb' 0 8, BitVec.ofNat 8 r.count] := by
  unfold FaultRecord.bytes
  rw [be32_toNat, be32_toNat]
  rfl

theorem faultRecord_bytes_length (r : FaultRecord) : r.bytes.length = 11 := rfl

theorem faultsAnswer_length (records : List FaultRecord) : (faultsAnswer records).length = 1 + 11 * records.length := by
  unfold faultsAnswer
  rw [List.length_cons, List.length_flatMap, List.map_congr_left fun r _ => faultRecord_bytes_length r]
  simp
  omega

/-- R170: the 11 bytes of each record stand behind those of the older ones. -/
theorem recordsBytes_place {r : FaultRecord} : ∀ {records : List FaultRecord} {i : Nat}, records[i]? = some r →
    ((records.flatMap FaultRecord.bytes).drop (11 * i)).take 11 = r.bytes
  | x :: records, 0, h => by
    cases h
    exact List.take_left' (faultRecord_bytes_length r)
  | x :: records, i + 1, h => by
    have hskip : ((x :: records).flatMap FaultRecord.bytes).drop (11 * (i + 1)) =
        (records.flatMap FaultRecord.bytes).drop (11 * i) := by
      rw [List.flatMap_cons, Nat.mul_succ, Nat.add_comm, ← faultRecord_bytes_length x, List.drop_length_add_append]
    rw [hskip]
    exact recordsBytes_place h

theorem faultsAnswer_place {records : List FaultRecord} {i : Nat} {r : FaultRecord} (h : records[i]? = some r) :
    ((faultsAnswer records).drop (1 + 11 * i)).take 11 = r.bytes := by
  rw [Nat.add_comm]
  exact recordsBytes_place h

/-! ## The output line (R170) -/

theorem outputByte_record (p : Port) {record i : Nat} (h : i < record) : p.outputByte record i = 0xFF#8 := if_pos h

theorem outputByte_answer (p : Port) (record i : Nat) :
    p.outputByte record (record + i) = p.answer[i]?.getD 0xFF#8 := by
  unfold Port.outputByte
  rw [if_neg (Nat.not_lt.2 (Nat.le_add_right record i)), Nat.add_sub_cancel_left, List.getD_eq_getElem?_getD]

/-- Settles O11: each answer is the one its command gives on a free port, and the output line carries it. -/
theorem portAnswersAndClearsFaults : Obligations.PortAnswersAndClearsFaults := by
  intro s
  refine ⟨exec_identify, fun hm => ⟨s.statusByte, exec_status hm, statusBits _ _ _ _ _⟩,
    fun hfree => ⟨⟨faultsAnswer s.faults.records, exec_faults hfree, faultsAnswer_length _, rfl, fun i r hr => ?_⟩,
      exec_clearFaults hfree⟩,
    fun record i => ⟨outputByte_record s.port, fun b hb => ?_, fun hi => ?_⟩⟩
  · rw [faultsAnswer_place hr, faultRecord_bytes]
  · rw [outputByte_answer, hb]; rfl
  · rw [outputByte_answer, List.getElem?_eq_none hi]; rfl

end Sys2Proof.Machine
end

section
/-! The commands of the maintenance port: when each is taken, and to what effect (R161 to R167). -/

namespace Sys2Proof.Machine

variable {s : State} {c : Instr} {n : Nat}

theorem inMaintenance_iff : s.inMaintenance = true ↔ s.phase = .maintenance := beq_iff_eq

theorem not_busy_iff : ¬s.busy = true ↔ s.port.operation = none := by
  rw [State.busy, Option.not_isSome_iff_eq_none]

theorem protected_iff : s.protected = true ↔ Memory.read s.memory 0x004 ≠ 0xFF#8 := bne_iff_ne

/-! ## Taking a command -/

/-- The effect of a command other than STATUS on a free port, its answer emptied first; a record that spells no command
is refused (R162). -/
def portEffect : Instr → State → State
  | .identify, t => t.answer identity
  | .setAddress address, t => { t with port.pointer := address.extractLsb' 0 23 }
  | .read, t => t.answer [t.readByte]
  | .readNext, t => (t.answer [t.readByte]).advancePointer
  | .load data, t => t.loadByte data
  | .loadNext data, t => (t.loadByte data).advancePointer
  | .commit, t => t.unlessProtected fun u => u.begin (.commit u.row) 3
  | .eraseSector, t => t.unlessProtected fun u => u.begin (.eraseSector u.sector) 50
  | .eraseAllContent, t => t.unlessProtected fun u => u.begin .eraseContent 2000
  | .eraseAllEverything, t => t.begin .eraseEverything 2000
  | .faults, t => t.answer (faultsAnswer t.faults.records)
  | .clearFaults, t => State.indicators { t with faults.records := [] }
  | .exit levels, t => t.restart .maintExit false levels
  | _, t => t.refuse

/-- R162, R163: the commands of the port other than STATUS are all taken in one way. -/
theorem exec_of_answerLength (h : answerLength? c = some n) : exec c s = portCommand n (portEffect c) s := by
  cases c with
  | identify | setAddress _ | read | readNext | load _ | loadNext _ | commit | eraseSector | eraseAllContent
  | eraseAllEverything | faults | clearFaults | exit _ | unknownCommand _ | eraseAllScopeRefused _ =>
    cases h
    rfl
  | _ => cases h

theorem exec_of_free (hc : answerLength? c = some n) (h : PortFree s) :
    exec c s = .next (portEffect c (s.answer [])) :=
  (exec_of_answerLength hc).trans (portCommand_free (effect := portEffect c) h)

end Sys2Proof.Machine
end

section
/-! An operation of the port cut short by a loss of power or by RESET (R168). -/

namespace Sys2Proof.Machine

variable {s : State} {op : Operation} {e a : Nat}

theorem Memory.risesFrom_of_wf {m : List Host.Cell} (h : Memory.wf m = true) : Memory.risesFrom 0 m = true :=
  (Memory.wf_iff.1 h).1

/-- R168: what a byte of a row reads as after a programming cut short. -/
theorem Memory.read_programCut_row {m : List Host.Cell} (latch : Vector Byte 256) (row draw : Nat) (i : Fin 256)
    (h : Memory.wf m = true) :
    Memory.read (Memory.programCut m latch row draw) (row + i.val) =
      if Config.cutKeepsOld draw (row + i.val) then Memory.read m (row + i.val)
      else Memory.read m (row + i.val) &&& latch[i] := by
  rw [Memory.read_programCut latch row draw _ (Memory.risesFrom_of_wf h),
    dif_pos ⟨Nat.le_add_right _ _, Nat.add_lt_add_left i.isLt _⟩]
  simp only [Nat.add_sub_cancel_left, Fin.getElem_fin]

theorem read_eraseCut_or (m : List Host.Cell) (lo hi draw a : Nat) :
    Memory.read (Memory.eraseCut m lo hi draw) a = Memory.read m a ∨
      Memory.read (Memory.eraseCut m lo hi draw) a = 0xFF#8 := by
  rw [Memory.read_eraseCut]
  exact ite_eq_or_eq _ _ _

theorem cutOperation_commit {row : Nat} (h : s.port.operation = some (.commit row, e)) :
    s.cutOperation.memory = Memory.programCut s.memory s.port.latch row s.draws := by
  unfold State.cutOperation
  rw [h]

theorem cutOperation_erase (h : s.port.operation = some (op, e)) (hop : ∀ row, op ≠ .commit row) :
    s.cutOperation.memory = Memory.eraseCut s.memory op.range.1 op.range.2 s.draws := by
  unfold State.cutOperation
  rw [h]
  cases op with
  | commit row => exact absurd rfl (hop row)
  | eraseSector _ => rfl
  | eraseContent => rfl
  | eraseEverything => rfl

/-- R168: the bytes outside the target of a cut operation keep their values. -/
theorem read_cutOperation_outside (hwf : Memory.wf s.memory = true) (h : s.port.operation = some (op, e))
    (ha : a < op.range.1 ∨ op.range.2 ≤ a) : Memory.read s.cutOperation.memory a = Memory.read s.memory a := by
  have herased (hop : ∀ row, op ≠ .commit row) :
      Memory.read s.cutOperation.memory a = Memory.read s.memory a := by
    rw [cutOperation_erase h hop, Memory.read_eraseCut, if_pos]
    simp only [Bool.or_eq_true, Bool.not_eq_true', Bool.and_eq_false_iff, decide_eq_false_iff_not]
    omega
  cases op with
  | commit row =>
    have hout : ¬(row ≤ a ∧ a < row + 256) := fun hin => ha.elim (Nat.not_lt.2 hin.1) (Nat.not_le.2 hin.2)
    rw [cutOperation_commit h, Memory.read_programCut _ _ _ _ (Memory.risesFrom_of_wf hwf), dif_neg hout]
  | eraseSector _ => exact herased nofun
  | eraseContent => exact herased nofun
  | eraseEverything => exact herased nofun

/-- R168: an erase cut short leaves each byte at its old value or at 0xFF. -/
theorem read_cutOperation_erased (h : s.port.operation = some (op, e)) (hop : ∀ row, op ≠ .commit row) (a : Nat) :
    Memory.read s.cutOperation.memory a = Memory.read s.memory a ∨ Memory.read s.cutOperation.memory a = 0xFF#8 := by
  rw [cutOperation_erase h hop]
  exact read_eraseCut_or _ _ _ _ a

/-- A loss of power, and a RESET of a station that has power, blank the station and cut the operation short. -/
theorem exec_cut {c : Instr} (hc : c = .powerLoss ∨ (c = .resetAssert ∧ s.phase ≠ .powerOff)) :
    ∃ phase, exec c s = .next (s.cutOperation.blank phase) := by
  rcases hc with rfl | ⟨rfl, hon⟩
  · exact ⟨.powerOff, rfl⟩
  · exact ⟨.heldInReset, exec_resetAssert hon⟩

/-- Settles O6: the bytes outside the target, and those inside it by the kind of the operation. -/
theorem cutOperationSettlesEachByte : Obligations.CutOperationSettlesEachByte := by
  intro s op e c hwf h hc
  obtain ⟨phase, hexec⟩ := exec_cut hc
  refine ⟨s.cutOperation.blank phase, hexec, rfl, fun a ha => read_cutOperation_outside hwf h ha, ?_⟩
  cases op with
  | commit row =>
    intro i
    show Memory.read s.cutOperation.memory _ = _ ∨ Memory.read s.cutOperation.memory _ = _
    rw [cutOperation_commit h, Memory.read_programCut_row _ _ _ _ hwf]
    exact ite_eq_or_eq _ _ _
  | eraseSector _ => exact fun a _ _ => read_cutOperation_erased h nofun a
  | eraseContent => exact fun a _ _ => read_cutOperation_erased h nofun a
  | eraseEverything => exact fun a _ _ => read_cutOperation_erased h nofun a

end Sys2Proof.Machine
end

section
/-! The show memory and the operation in progress: what each step can do to the two (R161, R165 to R168). -/

namespace Sys2Proof.Machine

variable {s t : State}

/-- All that a step can do to the show memory and to the operation of the port: leave both alone, start an operation
that protection allows, cut the one in progress short and clear it (R168), or end it (R165, R166). -/
inductive ImageStep (s t : State) : Prop where
  | kept (hm : t.memory = s.memory) (ho : t.port.operation = s.port.operation)
  | begun (op : Operation) (e : Nat) (hop : s.protected = true → op = .eraseEverything) (hm : t.memory = s.memory)
      (ho : t.port.operation = some (op, e))
  | cut (hm : t.memory = s.cutOperation.memory) (ho : t.port.operation = none)
  | committed (row e : Nat) (hs : s.port.operation = some (.commit row, e))
      (hm : t.memory = Memory.program s.memory s.port.latch row) (ho : t.port.operation = none)
  | erased (op : Operation) (e : Nat) (hs : s.port.operation = some (op, e))
      (hm : t.memory = Memory.erase s.memory op.range.1 op.range.2) (ho : t.port.operation = none)

/-! ## Outcomes -/

/-- Every next state that an outcome can be is an `ImageStep` away. -/
def LeadsToImage (s : State) (o : Host.Outcome State Fault Refusal) : Prop := ∀ t, o = .next t → ImageStep s t

theorem LeadsToImage.next (h : ImageStep s t) : LeadsToImage s (.next t) := fun _ ht => by cases ht; exact h

theorem LeadsToImage.same (hm : t.memory = s.memory) (ho : t.port.operation = s.port.operation) :
    LeadsToImage s (.next t) := .next (.kept hm ho)

theorem LeadsToImage.unchanged (s : State) : LeadsToImage s (.next s) := .same rfl rfl

theorem LeadsToImage.ite {p : Prop} [Decidable p] {a b : Host.Outcome State Fault Refusal} (ha : p → LeadsToImage s a)
    (hb : ¬p → LeadsToImage s b) : LeadsToImage s (if p then a else b) := by
  split
  · rename_i hp
    exact ha hp
  · rename_i hp
    exact hb hp

/-- A command that is taken on a condition, and has no effect otherwise. -/
theorem LeadsToImage.on {p : Prop} [Decidable p] {o : Host.Outcome State Fault Refusal} (ho : p → LeadsToImage s o) :
    LeadsToImage s (if p then o else .next s) := .ite ho fun _ => .unchanged s

theorem leadsToImage_event_bay {body : State → State} (hb : KeepsBay s (body s)) : LeadsToImage s (event body s) :=
  fun _ ht => .kept (keepsBay_event hb ht).memory (congrArg Port.operation (keepsBay_event hb ht).port)

theorem leadsToImage_event {body : State → State} (hb : Keeps s (body s)) : LeadsToImage s (event body s) :=
  leadsToImage_event_bay hb.toBay

theorem leadsToImage_due {body : State → State} {p : Prop} [Decidable p] (hb : Keeps s (body s)) :
    LeadsToImage s (if p then event body s else .next s) := .on fun _ => leadsToImage_event hb

/-! ## The commands of the port -/

/-- A command of the port has its effect on a free port alone, and sets LATE alone on a busy one (R163). -/
theorem leadsToImage_port {c : Instr} {n : Nat} (hc : answerLength? c = some n)
    (he : PortFree s → ImageStep s (portEffect c (s.answer []))) : LeadsToImage s (exec c s) := by
  rw [exec_of_answerLength hc]
  exact .on fun hp => .ite (fun _ => .same rfl rfl) fun hb =>
    .next (he ⟨inMaintenance_iff.1 hp, not_busy_iff.1 hb⟩)

/-- R167: an operation that protection refuses is started without protection alone. -/
theorem imageStep_begin_unlessProtected (op : State → Operation) (ms : Nat) :
    ImageStep s ((s.answer []).unlessProtected fun u => u.begin (op u) ms) := by
  unfold State.unlessProtected
  split
  · exact .kept rfl rfl
  · rename_i hp
    exact .begun _ _ (fun h => absurd h hp) rfl rfl

theorem endCommit_memory (s : State) (row : Nat) :
    (s.endCommit row).memory = Memory.program s.memory s.port.latch row := by
  unfold State.endCommit
  dsimp only

/-! ## Restarts -/

theorem startShow_image (s : State) (levels : Levels) :
    (s.startShow levels).memory = s.memory ∧ (s.startShow levels).port = s.port := by
  have hk := (keeps_readScenes { State.indicators { s with phase := .running, settings := readSettings s.memory } with
    inputs := InputUnit.atStart (readSettings s.memory) levels }).1
  exact ⟨hk.memory, hk.port⟩

/-- R156, R161: a restart keeps the show memory, and leaves the port as at the start of every restart. -/
theorem restart_image (s : State) (cause : RestartCause) (low : Bool) (levels : Levels) :
    (s.restart cause low levels).memory = s.memory ∧ (s.restart cause low levels).port = Port.atRestart := by
  unfold State.restart State.intoShow
  simp only []
  split
  · exact ⟨rfl, rfl⟩
  · split
    · exact ⟨rfl, rfl⟩
    · exact startShow_image _ levels

/-- A restart that cuts the operation in progress short. -/
theorem imageStep_restart_cut {u : State} (hu : u.memory = s.cutOperation.memory) (cause : RestartCause) (low : Bool)
    (levels : Levels) : ImageStep s (u.restart cause low levels) := by
  obtain ⟨hm, hp⟩ := restart_image u cause low levels
  exact .cut (hm.trans hu) (congrArg Port.operation hp)

theorem imageStep_exit (h : PortFree s) (levels : Levels) :
    ImageStep s ((s.answer []).restart .maintExit false levels) := by
  obtain ⟨hm, hp⟩ := restart_image (s.answer []) .maintExit false levels
  exact .kept hm ((congrArg Port.operation hp).trans h.operation.symm)

/-! ## Idling -/

theorem tickClock_image (s : State) : s.tickClock.memory = s.memory ∧ s.tickClock.port = s.port := by
  unfold State.tickClock
  split
  · exact ⟨rfl, rfl⟩
  · exact ⟨rfl, rfl⟩

theorem sendSample_image (s : State) : s.sendSample.memory = s.memory ∧ s.sendSample.port = s.port := by
  obtain ⟨x, n, hs⟩ := sendSample_frame s
  rw [hs]
  exact ⟨rfl, rfl⟩

theorem imageStep_idle (s : State) : ImageStep s s.idle := by
  unfold State.idle
  split
  · unfold State.passTime
    split
    · exact .kept rfl rfl
    · exact .kept rfl rfl
    · obtain ⟨hm, hp⟩ := sendSample_image s.tickClock
      obtain ⟨htm, htp⟩ := tickClock_image s
      exact .kept (hm.trans htm) (congrArg Port.operation (hp.trans htp))
  · exact .kept rfl rfl
  · exact .kept rfl rfl

/-! ## Every command -/

theorem leadsToImage_exec (s : State) (c : Instr) : LeadsToImage s (exec c s) := by
  cases c with
  | powerOn low levels =>
    exact .next (imageStep_restart_cut (u := { s.cutOperation with faults.records := [] }) rfl _ _ _)
  | powerLoss | supplyRiseWithResetLow => exact .next (.cut rfl rfl)
  | resetAssert => exact .ite (fun _ => .unchanged s) fun _ => .next (.cut rfl rfl)
  | resetRelease low levels => exact .ite (fun _ => .unchanged s) fun _ => .next (imageStep_restart_cut rfl _ _ _)
  | inputSample i code => exact .on fun _ => leadsToImage_event_bay (keepsBay_sampleInput s i code)
  | quietTimerExpiry => exact .on fun _ => leadsToImage_event_bay (keepsBay_bayEmpties s)
  | idleTimerExpiry =>
    refine .on fun hd => leadsToImage_event_bay ?_
    obtain ⟨hs, hi⟩ := Bool.and_eq_true_iff.1 hd
    obtain ⟨e, he, -⟩ := (reached_iff_expired _ _).1 hi
    exact keepsBay_bayIdles s hs (by rw [he]; rfl)
  | cooldownEnd n => exact leadsToImage_due (keeps_endCooldown s n)
  | stepDeadline k => exact leadsToImage_due (keeps_runSlot s k)
  | awaitTimeout k => exact leadsToImage_due (keeps_completeAwait s k true)
  | fadeStep c => exact leadsToImage_due (keeps_takeFadeStep s c)
  | announcementDue => exact leadsToImage_due (keeps_handOverLoad s)
  | admissionTimeout d =>
    refine .on fun _ => ?_
    split
    · exact leadsToImage_event (keeps_failAdmission s _)
    · exact .unchanged s
  | voiceEntryExpiry n => exact leadsToImage_due ((keeps_setVoice s n .quiet).trans (keeps_checkStart _))
  | patienceExpiry k clip =>
    refine .on fun _ => ?_
    split
    · exact leadsToImage_event (keeps_patience s k clip _)
    · exact .unchanged s
  | windowEnd => exact leadsToImage_due (keeps_endWindow s)
  | clipEnd => exact leadsToImage_due (keeps_endClip s)
  | fadeOutEnd => exact leadsToImage_due (keeps_endFadeOut s)
  | encoderCount d a b => exact leadsToImage_due (keeps_readEncoder s d a b)
  | stillTimerExpiry d => exact leadsToImage_due (keeps_driveArrives s d)
  | stallTimerExpiry d => exact leadsToImage_due (keeps_driveFault s d .stall)
  | currentSample d code => exact leadsToImage_due (keeps_takeSample s d code.toNat)
  | switchClose d which => exact leadsToImage_due (keeps_closeSwitch s d which)
  | retryTimerExpiry => exact leadsToImage_due (keeps_retryAsk s)
  | giveUpTimerExpiry => exact leadsToImage_due (keeps_giveUpAsk s)
  | grantTimerExpiry => exact leadsToImage_due (keeps_trackLost s)
  | settleEnd => exact leadsToImage_due (keeps_receiveComplete s)
  | haltReceived f => exact leadsToImage_event (keeps_receive s _ f _ keeps_haltFrame)
  | resumeReceived f => exact leadsToImage_event (keeps_receive s _ f _ keeps_resumeFrame)
  | talkIntentReceived f => exact leadsToImage_event (keeps_receive s _ f _ fun t => keeps_hearIntent t _ _ _)
  | talkBusyReceived f => exact leadsToImage_event (keeps_receive s _ f _ fun t => keeps_hearBusy t _ _ _)
  | talkEndReceived f => exact leadsToImage_event (keeps_receive s _ f _ fun t => keeps_hearEnd t _)
  | blockAskReceived f => exact leadsToImage_event (keeps_receive s _ f _ fun t => keeps_hearAsk t _ _ _)
  | blockGrantReceived f => exact leadsToImage_event (keeps_receive s _ f _ fun t => keeps_hearGrant t _ _)
  | blockHeldReceived f => exact leadsToImage_event (keeps_receive s _ f _ fun t => keeps_hearHeld t _ _)
  | blockReleaseReceived f => exact leadsToImage_event (keeps_receive s _ f _ fun t => keeps_hearRelease t _ _ _)
  | cueReceived f => exact leadsToImage_event (keeps_receive s _ f _ fun t => keeps_hearCue t _ _ _)
  | loadReceived f => exact leadsToImage_event (keeps_receive s _ f _ fun t => keeps_hearLoad t _ _ _ _)
  | peerAgeOut n => exact leadsToImage_due (keeps_removePeer s n)
  | transmissionAttempt =>
    have hk := keeps_beginAttempt s
    exact .on fun _ => .same hk.memory (congrArg Port.operation hk.port)
  | arbitrationLost => exact leadsToImage_due (keeps_loseAttempt s)
  | readbackAbort => exact leadsToImage_due (keeps_abortAttempt s)
  | transmissionSuccess =>
    refine .on fun _ => ?_
    split
    · exact leadsToImage_event (keeps_succeedAttempt s _)
    · exact .unchanged s
  | muteTimerExpiry => exact leadsToImage_due (keeps_endMute s)
  | joiningTimerExpiry => exact leadsToImage_due (keeps_endJoining s)
  | latchExpiry _ | switchOpen _ _ | haltBrakeEnd _ | lineStuck | stuckHoldClear | status =>
    exact .on fun _ => .same rfl rfl
  | transactionDiscard bytes => exact .unchanged s
  | identify | setAddress _ | read | readNext | load _ | loadNext _ | faults | clearFaults | unknownCommand _
  | eraseAllScopeRefused _ => exact leadsToImage_port rfl fun _ => .kept rfl rfl
  | commit => exact leadsToImage_port rfl fun _ => imageStep_begin_unlessProtected (fun u => .commit u.row) 3
  | eraseSector =>
    exact leadsToImage_port rfl fun _ => imageStep_begin_unlessProtected (fun u => .eraseSector u.sector) 50
  | eraseAllContent =>
    exact leadsToImage_port rfl fun _ => imageStep_begin_unlessProtected (fun _ => .eraseContent) 2000
  | eraseAllEverything => exact leadsToImage_port rfl fun _ => .begun _ _ (fun _ => rfl) rfl rfl
  | commitComplete =>
    refine .on fun _ => ?_
    split
    · rename_i row hdue
      obtain ⟨e, ho, -⟩ := (operationDue_iff s _).1 hdue
      exact .next (.committed row e ho (endCommit_memory s row) rfl)
    · exact .unchanged s
  | eraseComplete =>
    refine .on fun _ => ?_
    split
    · exact .unchanged s
    · exact .unchanged s
    · rename_i op _ hdue
      obtain ⟨e, ho, -⟩ := (operationDue_iff s _).1 hdue
      exact .next (.erased op e ho rfl rfl)
  | exit levels => exact leadsToImage_port rfl fun hfree => imageStep_exit hfree levels

/-! ## What the steps keep (R166 to R168) -/

/-- With no operation in progress, no step changes the show memory, in the show or outside it. -/
theorem ImageStep.memory_of_no_operation (h : ImageStep s t) (hn : s.port.operation = none) :
    t.memory = s.memory := by
  cases h with
  | kept hm _ => exact hm
  | begun _ _ _ hm _ => exact hm
  | cut hm _ => rw [hm, cutOperation_free hn]
  | committed _ _ hs _ _ => rw [hn] at hs; cases hs
  | erased _ _ hs _ _ => rw [hn] at hs; cases hs

/-- No operation but an ERASE_ALL of scope EVERYTHING is in progress. -/
def ErasesEverythingAlone (s : State) : Prop :=
  ∀ op e, s.port.operation = some (op, e) → op = .eraseEverything

theorem erasesEverythingAlone_of_none (h : s.port.operation = none) : ErasesEverythingAlone s := fun op e ho => by
  rw [h] at ho
  cases ho

/-- Protection lets no step start another operation. -/
theorem ImageStep.erasesEverythingAlone (h : ImageStep s t) (hp : s.protected = true) (hs : ErasesEverythingAlone s) :
    ErasesEverythingAlone t := by
  cases h with
  | kept _ ho => exact fun op e hop => hs op e (ho ▸ hop)
  | begun op e hop _ ho =>
    intro op' e' ho'
    rw [ho] at ho'
    cases ho'
    exact hop hp
  | cut _ ho => exact erasesEverythingAlone_of_none ho
  | committed _ _ _ _ ho => exact erasesEverythingAlone_of_none ho
  | erased _ _ _ _ ho => exact erasesEverythingAlone_of_none ho

theorem read_erase_or (m : List Host.Cell) (lo hi a : Nat) :
    Memory.read (Memory.erase m lo hi) a = Memory.read m a ∨ Memory.read (Memory.erase m lo hi) a = 0xFF#8 := by
  rw [Memory.read_erase]
  exact (ite_eq_or_eq _ _ _).symm

/-- The show memory changes by the end or the cut of an ERASE_ALL alone, each byte to 0xFF. -/
theorem ImageStep.memory_or_erased (h : ImageStep s t) (hs : ErasesEverythingAlone s) :
    t.memory = s.memory ∨ (s.port.operation ≠ none ∧ ∀ a, Memory.read t.memory a = Memory.read s.memory a ∨
      Memory.read t.memory a = 0xFF#8) := by
  cases h with
  | kept hm _ => exact .inl hm
  | begun _ _ _ hm _ => exact .inl hm
  | cut hm _ =>
    rw [hm]
    cases ho : s.port.operation with
    | none => exact .inl (by rw [cutOperation_free ho])
    | some x =>
      obtain ⟨op, e⟩ := x
      obtain rfl := hs op e ho
      exact .inr ⟨Option.some_ne_none _, read_cutOperation_erased ho nofun⟩
  | committed row e ho _ _ => cases hs _ e ho
  | erased op e ho hm _ =>
    rw [hm, ho]
    exact .inr ⟨Option.some_ne_none _, read_erase_or _ _ _⟩

theorem imageStep_step (h : step s = .next t) : ∃ pending, ImageStep { s with pending := pending } t := by
  unfold step at h
  split at h
  · cases h
    exact ⟨s.pending, imageStep_idle s⟩
  · rename_i c rest _
    exact ⟨rest, leadsToImage_exec _ c t h⟩

/-- Settles O14: whatever a step does to the show memory and the operation, it keeps what the statement says. -/
theorem protectedMemoryIsKept : Obligations.ProtectedMemoryIsKept := by
  intro s t ht
  obtain ⟨pending, h⟩ := imageStep_step ht
  exact ⟨fun _ => h.memory_of_no_operation,
    fun hp hs => ⟨h.erasesEverythingAlone (protected_iff.2 hp) hs, h.memory_or_erased hs⟩⟩

end Sys2Proof.Machine
end

section
/-! COMMIT, the erase commands and their ends (R165 to R167). -/

namespace Sys2Proof.Machine

variable {s : State} {op : Operation} {e : Nat}

/-! ## Starts, with and without protection -/

theorem unlessProtected_open {effect : State → State} (h : Memory.read s.memory 0x004 = 0xFF#8) :
    s.unlessProtected effect = effect s := if_neg fun hp => protected_iff.1 hp h

theorem unlessProtected_refused {effect : State → State} (h : Memory.read s.memory 0x004 ≠ 0xFF#8) :
    s.unlessProtected effect = s.refuse := if_pos (protected_iff.2 h)

/-- R165 to R167: a COMMIT, an ERASE_SECTOR or an ERASE_ALL of scope CONTENT on a free port. -/
theorem exec_unlessProtected {c : Instr} {effect : State → State} (hc : answerLength? c = some 0) (h : PortFree s)
    (he : portEffect c = fun t => t.unlessProtected effect) :
    (Memory.read s.memory 0x004 = 0xFF#8 → exec c s = .next (effect (s.answer []))) ∧
    (Memory.read s.memory 0x004 ≠ 0xFF#8 → exec c s = .next (s.answer []).refuse) := by
  have hexec := exec_of_free hc h
  rw [he] at hexec
  exact ⟨fun hopen => hexec.trans (congrArg _ (unlessProtected_open (s := s.answer []) hopen)),
    fun hprot => hexec.trans (congrArg _ (unlessProtected_refused (s := s.answer []) hprot))⟩

/-! ## Ends -/

theorem exec_commitComplete {row : Nat} (hm : s.phase = .maintenance) (h : s.port.operation = some (.commit row, e))
    (he : e ≤ s.clockMs) : exec .commitComplete s = .next (s.endCommit row) := by
  show execCommitComplete s = _
  unfold execCommitComplete
  rw [if_pos (inMaintenance_iff.2 hm), (operationDue_iff s _).2 ⟨e, h, he⟩]

theorem exec_eraseComplete (hm : s.phase = .maintenance) (h : s.port.operation = some (op, e))
    (hop : ∀ row, op ≠ .commit row) (he : e ≤ s.clockMs) : exec .eraseComplete s = .next (s.endErase op) := by
  show execEraseComplete s = _
  unfold execEraseComplete
  rw [if_pos (inMaintenance_iff.2 hm), (operationDue_iff s _).2 ⟨e, h, he⟩]
  cases op with
  | commit row => exact absurd rfl (hop row)
  | eraseSector _ => rfl
  | eraseContent => rfl
  | eraseEverything => rfl

/-- R165: what a byte of a programmed row reads as. -/
theorem Memory.read_program_row {m : List Host.Cell} (latch : Vector Byte 256) (row : Nat) (i : Fin 256)
    (h : Memory.wf m = true) :
    Memory.read (Memory.program m latch row) (row + i.val) = Memory.read m (row + i.val) &&& latch[i] := by
  rw [Memory.read_program latch row _ (Memory.risesFrom_of_wf h),
    dif_pos ⟨Nat.le_add_right _ _, Nat.add_lt_add_left i.isLt _⟩]
  simp only [Nat.add_sub_cancel_left, Fin.getElem_fin]

theorem Memory.read_program_outside {m : List Host.Cell} (latch : Vector Byte 256) {row a : Nat}
    (h : Memory.wf m = true) (ha : a < row ∨ row + 256 ≤ a) :
    Memory.read (Memory.program m latch row) a = Memory.read m a := by
  rw [Memory.read_program latch row _ (Memory.risesFrom_of_wf h), dif_neg (by omega)]

/-- Settles O9: the start by protection, and the row and the other bytes at the end. -/
theorem commitProgramsRow : Obligations.CommitProgramsRow := by
  intro s
  refine ⟨fun hfree => exec_unlessProtected (effect := fun u => u.begin (.commit u.row) 3) rfl hfree rfl,
    fun row e hwf hm h he => ?_⟩
  exact ⟨Memory.program s.memory s.port.latch row, exec_commitComplete hm h he,
    fun i => Memory.read_program_row _ _ i hwf, fun a ha => Memory.read_program_outside _ hwf ha⟩

/-- R166: an erased range, and every other address. -/
theorem Memory.erase_settles (m : List Host.Cell) (lo hi : Nat) :
    (∀ a, lo ≤ a → a < hi → Memory.read (Memory.erase m lo hi) a = 0xFF#8) ∧
      ∀ a, a < lo ∨ hi ≤ a → Memory.read (Memory.erase m lo hi) a = Memory.read m a :=
  ⟨fun a hlo hhi => by rw [Memory.read_erase, if_pos ⟨hlo, hhi⟩]; rfl,
    fun a ha => by rw [Memory.read_erase, if_neg (by omega)]⟩

/-- Settles O10: the starts by protection, and the range of each erase and the other bytes at the end. -/
theorem eraseRestoresErasedBytes : Obligations.EraseRestoresErasedBytes := by
  intro s
  refine ⟨fun hfree => ?_, fun op e hm h hop he => ?_⟩
  · obtain ⟨hsectorBegun, hsectorRefused⟩ := exec_unlessProtected (c := .eraseSector)
      (effect := fun u => u.begin (.eraseSector u.sector) 50) rfl hfree rfl
    obtain ⟨hcontentBegun, hcontentRefused⟩ := exec_unlessProtected (c := .eraseAllContent)
      (effect := fun u => u.begin .eraseContent 2000) rfl hfree rfl
    exact ⟨fun hopen => ⟨hsectorBegun hopen, hcontentBegun hopen⟩,
      fun hprot => ⟨hsectorRefused hprot, hcontentRefused hprot⟩,
      exec_of_free rfl hfree⟩
  · refine ⟨Memory.erase s.memory op.range.1 op.range.2, exec_eraseComplete hm h hop he, ?_⟩
    have hrange := Memory.erase_settles s.memory op.range.1 op.range.2
    cases op with
    | commit row => exact absurd rfl (hop row)
    | eraseSector _ => exact hrange
    | eraseContent => exact hrange
    | eraseEverything => exact hrange

end Sys2Proof.Machine
end

section
/-! Reads, the row latch, and the records that are not carried out (R161 to R165, R167). -/

namespace Sys2Proof.Machine

variable {s : State}

/-! ## The pointer and the latch (R164, R165) -/

theorem pointer_of_address (address : BitVec 24) :
    (address.extractLsb' 0 23).toNat = address.toNat % 0x800000 := by
  rw [BitVec.extractLsb'_toNat, Nat.shiftRight_zero]

theorem pointer_next (p : BitVec 23) : (p + 1).toNat = (p.toNat + 1) % 0x800000 := BitVec.toNat_add p 1

/-- R164, R167: the byte a READ answers. -/
theorem readByte_eq (s : State) : s.readByte =
    if Memory.read s.memory 0x004 ≠ 0xFF#8 ∧ 0x1000 ≤ s.port.pointer.toNat then 0x00#8
    else Memory.read s.memory s.port.pointer.toNat := by
  unfold State.readByte
  simp only [Bool.and_eq_true, protected_iff, decide_eq_true_eq, Nat.lt_iff_add_one_le]

theorem loadByte_latch (s : State) (data : Byte) (i : Fin 256) :
    (s.loadByte data).port.latch[i] = if i.val = s.port.pointer.toNat % 256 then data else s.port.latch[i] := by
  show (s.port.latch.set s.latchPosition.val data s.latchPosition.isLt)[i.val] = _
  rw [Vector.getElem_set]
  exact if_congr eq_comm rfl rfl

/-- Settles O8: each command by its effect on a free port. -/
theorem readsAndLoadsFollowPointer : Obligations.ReadsAndLoadsFollowPointer := by
  intro s address data hfree a b
  have hread : (s.answer []).readByte = b := readByte_eq _
  refine ⟨address.extractLsb' 0 23, s.port.pointer + 1, (s.loadByte data).port.latch, pointer_of_address address,
    pointer_next _, loadByte_latch s data, exec_of_free rfl hfree, ?_, ?_, exec_of_free rfl hfree,
    exec_of_free rfl hfree⟩
  · rw [← hread]
    exact exec_of_free rfl hfree
  · rw [← hread]
    exact exec_of_free rfl hfree

/-! ## Commands that are not taken (R161, R163) -/

theorem portCommand_late {n : Nat} {effect : State → State} (hm : s.phase = .maintenance)
    (hb : s.port.operation ≠ none) : portCommand n effect s =
      .next { s with port.late := true, port.answer := List.replicate n 0x00#8 } :=
  (if_pos (inMaintenance_iff.2 hm)).trans (if_pos (not_not.1 (mt not_busy_iff.1 hb)))

theorem portCommand_outside {n : Nat} {effect : State → State} (hm : s.phase ≠ .maintenance) :
    portCommand n effect s = .next s := if_neg (mt inMaintenance_iff.1 hm)

/-- Settles O13: records that spell no command, and commands while BUSY and outside maintenance. -/
theorem unrecognisedAndLateRecords : Obligations.UnrecognisedAndLateRecords := by
  refine ⟨fun s bytes code scope => ⟨rfl, fun hfree => ⟨exec_of_free rfl hfree, exec_of_free rfl hfree⟩⟩,
    fun c n s hc => ⟨fun hm hb => ?_, fun hm => ⟨?_, if_neg (mt inMaintenance_iff.1 hm)⟩⟩⟩
  · exact (exec_of_answerLength hc).trans (portCommand_late hm hb)
  · exact (exec_of_answerLength hc).trans (portCommand_outside hm)

end Sys2Proof.Machine
end

section
/-! The station with a command waiting: the counterpart of `step_idle`. -/

namespace Sys2Proof.Machine

theorem step_front {s : State} {c : Instr} {rest : List Instr} (h : s.pending = c :: rest) :
    step s = exec c { s with pending := rest } := by
  unfold step
  rw [h]

/-- Settles O1: a queue with a command at its front is not empty, so that the station does not idle. -/
theorem stepRunsFrontCommand : Obligations.StepRunsFrontCommand := by
  intro c rest s
  exact step_front rfl

end Sys2Proof.Machine
end
